-- ==== Sys2Proof/Word.lean ====
section
/-!
DEFINITION. The word types of the Chrorvasal Z4 and their plainest operations (R3, R4, R14): a byte,
a 32-bit word, a 64-bit pair, a lane mask of one wave, and the two ways of widening.
-/

namespace Sys2Proof

/-- One byte of memory. -/
abbrev Byte := BitVec 8

/-- A 32-bit register word or instruction word. -/
abbrev Word := BitVec 32

/-- A 64-bit value: a uniform pair, an address, a program counter (R3). -/
abbrev Dword := BitVec 64

/-- A set of lanes of one wave; bit l is lane l (R11). -/
abbrev Mask := BitVec 32

/-- The 17 bits of a fragment's mode register (R106). -/
abbrev ModeBits := BitVec 17

/-- A vector register of one wave: 32 lanes of 32 bits, lane 0 first (R43). -/
abbrev Vec := List Word

/-- The vector whose every lane is zero. -/
def Vec.zero : Vec := List.replicate 32 0

/-- Lane l of a vector register. -/
def Vec.lane (v : Vec) (l : Nat) : Word := v.getD l 0

/-- The vector with lane l holding `f l`. -/
def Vec.build (f : Nat → Word) : Vec := (List.range 32).map f

/-- The 64-bit value with low word `lo` and high word `hi` (R3). -/
def pair (lo hi : Word) : Dword := hi ++ lo

/-- The low word of a pair. -/
def loWord (d : Dword) : Word := d.setWidth 32

/-- The high word of a pair. -/
def hiWord (d : Dword) : Word := (d >>> 32).setWidth 32

/-- The lanes of a wave, in ascending order. -/
def lanes : List Nat := List.range 32

/-- The mask of the lanes on which `f` holds. -/
def maskOf (f : Nat → Bool) : Mask :=
  BitVec.ofNat 32 (lanes.foldl (fun acc l => acc + (if f l then 2 ^ l else 0)) 0)

end Sys2Proof
end

