-- ==== Sys2Proof/Config.lean ====
section
/-!
DEFINITION. What the Chrorvasal Z4 manual fixes as counts and sizes, and the free values: constants
with no body, for values that the manual leaves open. No statement can see what a free value is.
-/

namespace Sys2Proof.Config

/-- The settle window in cycles (R207). -/
def settle : Nat := 128
/-- Sectors of a wave's write buffer (R202). -/
def wwbSectors : Nat := 64
/-- Sectors of a core's block-level write buffer (R202). -/
def bwbSectors : Nat := 4096
/-- Sectors of a cluster's gang-level write buffer (R202). -/
def gwbSectors : Nat := 8192
/-- Provisional sectors that fit in half the ways of one die's L2 slice of 32 MiB (R17, R210); DEDUCED, log entry 18. -/
def provSectors : Nat := 524288
/-- Sectors of a core's 128 KiB L1 (R19, R165). -/
def l1Sectors : Nat := 4096
/-- Lines of a wave's 8 KiB stack cache (R173). -/
def stackLines : Nat := 64
/-- Wave-registers of a core's pool (R19, R43). -/
def poolRegs : Nat := 3072
/-- Wave slots of a core: 8 in each of 4 quadrants (R19). -/
def waveSlots : Nat := 32
/-- Dies, clusters per die, cores per cluster (R10). -/
def dies : Nat := 4
def clusters : Nat := 52
def coresPerDie : Nat := 52
def cores : Nat := 208
/-- The index that stands for the physical function; virtual functions are 0 to 95 (R26). -/
def physFn : Nat := 96
/-- Hardware queue slots and software queues (R26). -/
def slots : Nat := 128
def queues : Nat := 4096
/-- Stream engines and contexts of each (R181). -/
def engines : Nat := 32
def engineContexts : Nat := 8
/-- Entries of a die's fault buffer (R26, R200). -/
def faultBuffer : Nat := 4096
/-- Entries of a core's copy queue, fill-lock table and handle table (R194, R182, R188). -/
def copyEntries : Nat := 64
def fillLocks : Nat := 32
def handles : Nat := 1024
/-- Arrival queue capacity and contracts of a context (R349, R353). -/
def arrivals : Nat := 64
def contracts : Nat := 256
/-- Reply reservations of the module and their life in real ticks (R378). -/
def reservations : Nat := 4096
def reservationLife : Nat := 2000
/-- Module flash in bytes and one error record (R398, R400). -/
def addressTop : Nat := 2 ^ 53

/-- Time is counted in units of 1/84 real ns, in which one cycle of every clock state of R414 is
whole: 60 units at 1.4 GHz, 70 at 1.2, 84 at 1.0 and 105 at 0.8; DESIGN CHOICE, log entry 2. -/
def unitsPerNs : Nat := 84
/-- Units in one cycle of clock state k, 0 being the fastest (R414). -/
def unitsPerCycle : Nat → Nat
  | 0 => 60
  | 1 => 70
  | 2 => 84
  | _ => 105
/-- Units in one real tick of 1 µs (R8). -/
def unitsPerTick : Nat := 84000

/-- FREE VALUE. Whether a fixed function of R148 delivers the upper of the two binary32 values
adjacent to its exact result: a function of the opcode and the operand alone (R94); DESIGN CHOICE, log entry 9. -/
opaque fixedUp : Nat → Word → Bool

/-- FREE VALUE. The seed that firmware loads into SCRSEED at the k-th boot (R399), one less, since it is
nonzero; DESIGN CHOICE, log entry 16. -/
opaque screenSeed : Nat → Fin 4294967295

/-- FREE VALUE. Whether MSGGO takes the queue from its own bits rather than from the header in MSGBUF where the two
differ, by cycle; DESIGN CHOICE, log entry 60. -/
opaque msggoHeader : Nat → Bool

/-- FREE VALUE. Bytes that the device produces and the manual does not fix (a ciphertext, a tag, a
key, a signature, a nonce, a certificate), by what they are and what they depend on; DESIGN CHOICE, log entry 13. -/
opaque deviceByte : Nat → List Byte → Nat → Byte

/-- FREE VALUE. The die whose L2 slice is the home of a device sector, which the manual does not give (R165, R210);
DESIGN CHOICE, log entry 18. -/
opaque homeSlice : Nat → Fin 4

/-- FREE VALUE. The SHA-384 digest of a byte string, 48 bytes, which the manual names and does not
define (R409); DESIGN CHOICE, log entry 13. -/
opaque sha384 : List Byte → BitVec 384

/-- FREE VALUE. The 64-bit CRC of R395, whose polynomial the manual does not give; DESIGN CHOICE, log entry 19. -/
opaque crc64 : List Byte → Dword

/-- FREE VALUE. The next state of the 32-bit LFSR of R395, whose taps the manual does not give;
DESIGN CHOICE, log entry 19. -/
opaque lfsrNext : Word → Word

/-- FREE VALUE. Which lane's result a replay entry keeps (R394); DESIGN CHOICE, log entry 19. -/
opaque replayLane : Nat → Nat

/-- FREE VALUE. The size in bytes that a saved block takes in its save area beside its wave records,
which R338 leaves opaque, as a function of the numbers of its parts; DESIGN CHOICE, log entry 20. -/
opaque blockRecordBytes : Nat → Nat → Nat

/-- FREE VALUE. What a poisoned queue entry yields, in a lane, to the handler's dequeue that discards it
(R50), by cycle and wave; DESIGN CHOICE, log entry 23. -/
opaque poisonData : Nat → Nat → Nat → Word

/-- FREE VALUE. How many of a load's lines miss in L1, whose replacement the manual does not give, by
cycle and wave (R402); DESIGN CHOICE, log entry 24. -/
opaque l1Misses : Nat → Nat → Nat

/-- FREE VALUE. The band of a core's temperature, by cycle and core, which is no state of the model (R400);
DESIGN CHOICE, log entry 25. -/
opaque temperatureBand : Nat → Nat → Nat

/-- FREE VALUE. The device sectors whose L2 lines carry the tags of a function, and of an ASID where one is given, by cycle
(R405); DESIGN CHOICE, log entry 26. -/
opaque l2Sectors : Nat → Nat → Option Nat → List Nat

/-- FREE VALUE. The IV of a dump's chunk, by cycle and number, and a byte of its ciphertext and tag, by key, IV and the bytes
enciphered (R405); DESIGN CHOICE, log entry 13. -/
opaque dumpIv : Nat → Nat → Nat
opaque sealed : BitVec 256 → Nat → List Byte → Nat → Byte

/-- FREE VALUE. By how much the ring of error records in the 64 MiB module flash falls short of the 2^20 that would fill it,
which the manual does not say (R400); DESIGN CHOICE, log entry 25. -/
opaque logShort : Fin 1048576
/-- Error records in the ring. -/
def logRecords : Nat := 1048576 - logShort.val

/-- FREE VALUE. The SHA-384 hash of public key i of an image written to flash (R407), by its bytes; DESIGN CHOICE, log
entry 17. -/
opaque imageKey : List Byte → Nat → BitVec 384

/-- FREE VALUE. What the boot ROM finds of an image written to flash: check i of R407, 1
signatures, 2 model, 3 readability, by its bytes; DESIGN CHOICE, log entry 17. -/
opaque imageCheck : List Byte → Nat → Bool

/-- FREE VALUE. The security version that an image carries (R407), by its bytes; DESIGN CHOICE, log entry 17. -/
opaque imageVersion : List Byte → Nat

end Sys2Proof.Config
end

