-- ==== Sys2Proof/Syntax.lean ====
section
/-!
DEFINITION. The instructions of the Chrorvasal Z4: one constructor for each row of the opcode table.
The first 168 are the Tchieg words (R95, R96, R117), the next twelve the stream-engine commands
(R296), and the rest the events by which the device and its surroundings act on the machine; an
event carries as operands whatever the surroundings decide (a payload, a reply, a recomputed value).
Register fields are operand specifiers (R100), every other field is the bits of its encoding.
-/

namespace Sys2Proof

/-- An operand specifier: the 256 codes of R100, none left out. -/
inductive Spec
  /-- 0x00-0x7F: vector registers. -/
  | v (n : Fin 128)
  /-- 0x80-0xBF: uniform registers. -/
  | s (n : Fin 64)
  /-- 0xC0-0xC7: predicates. -/
  | p (n : Fin 8)
  /-- 0xC8-0xCB: load queues. -/
  | lq (n : Fin 4)
  /-- 0xCC-0xCD: store queues. -/
  | sq (n : Fin 2)
  /-- 0xCE: the control queue. -/
  | cq
  /-- 0xCF: reserved. -/
  | rsv
  /-- 0xD0-0xD7: the read-only specials of R103. -/
  | special (k : Fin 8)
  /-- 0xD8-0xDF: reserved. -/
  | rsvd (k : Fin 8)
  /-- 0xE0-0xF7: integer constants 0 to 15, then -1 to -8. -/
  | ic (n : Fin 24)
  /-- 0xF8-0xFF: floating constants 0.5, 1, 2, 4, -0.5, -1, -2, -4. -/
  | fc (n : Fin 8)
  deriving DecidableEq, Repr, Inhabited

/-- The two instruction streams of a wave (R42): the address slice and the compute slice. -/
inductive Slice
  | a
  | c
  deriving DecidableEq, Repr, Inhabited

/-- What an instruction fetch meets in place of a word (R99). -/
inductive FetchStop
  /-- A non-replayable translation outcome, with its PROTECTION cause (R168). -/
  | protection (cause : Nat)
  /-- Uncorrectable data. -/
  | poison
  /-- A replayable translation fault: V = 0 at some level (R200). -/
  | miss
  deriving DecidableEq, Repr

/-- What a peer answers to an outstanding access (R260, R378). -/
inductive PeerAnswer
  | data (bytes : List Byte)
  /-- Uncorrectable data at the target (R396, R397). -/
  | poisoned
  | refused
  | vfGone
  deriving DecidableEq, Repr

/-- What a peer asks of this module's memory (R378). -/
inductive PeerAsk
  | load (size : Nat)
  | store (bytes : List Byte)
  | atomic (op : BitVec 4) (et : BitVec 4) (operand : Dword) (swap : Dword)
  deriving DecidableEq, Repr

/-- The register a host or plain write reaches (R317, R370). -/
inductive RegTarget
  /-- An offset of a function's page. -/
  | page (fn : Nat) (off : Nat)
  /-- A register of the SYSR/SYSW space, written for a context at host privilege. -/
  | sys (fn asid : Nat) (num : Nat)
  deriving DecidableEq, Repr

/-- The storage that an error-correcting code reports on (R396). -/
inductive EccPlace
  | device (sector : Nat)
  | scratch (block sector : Nat)
  | wbuf (block sector : Nat)
  | abuf (block sector : Nat)
  | cbuf (block sector : Nat)
  /-- A sector of the line of a word in the stack cache of a wave. -/
  | stack (wave word sector : Nat)
  /-- A sector of another storage array, by its unit and LOC, which holds the bytes of a device sector. -/
  | array (unit loc sector : Nat)
  deriving DecidableEq, Repr

/-- The instructions, commands and events of the opcode table; those without operands stand last. -/
inductive Instr
  /-- MODE (R107). -/
  | mode (i : BitVec 17)
  /-- PMODE (R108). -/
  | pmode (n : BitVec 4) (i : BitVec 17)
  /-- LOOP (R113). -/
  | loop (s : Spec) (len : BitVec 8)
  /-- LOOPI (R113). -/
  | loopi (c : BitVec 16) (len : BitVec 8)
  /-- BRA (R155). -/
  | bra (i : BitVec 24)
  /-- BCC (R155). -/
  | bcc (t : BitVec 1) (i : BitVec 23)
  /-- BMZ (R155). -/
  | bmz (p : BitVec 3) (i : BitVec 21)
  /-- BMNZ (R155). -/
  | bmnz (p : BitVec 3) (i : BitVec 21)
  /-- SPLIT (R38). -/
  | split (p : BitVec 3) (t : BitVec 10) (j : BitVec 11)
  /-- CALL (R157). -/
  | call (i : BitVec 24)
  /-- JMPR (R157). -/
  | jmpr (a : Spec)
  /-- CQPUT (R161). -/
  | cqput (a : Spec)
  /-- CQGET (R162). -/
  | cqget (d : Spec)
  /-- LDI (R136). -/
  | ldi (d : Spec) (i : BitVec 16)
  /-- LDIH (R136). -/
  | ldih (d : Spec) (i : BitVec 16)
  /-- MOV (R136). -/
  | mov (d : Spec) (a : Spec)
  /-- TRAP (R315). -/
  | trap (i : BitVec 16)
  /-- IADD (R137). -/
  | iadd (d : Spec) (a : Spec) (b : Spec)
  /-- ISUB (R137). -/
  | isub (d : Spec) (a : Spec) (b : Spec)
  /-- IMUL (R137). -/
  | imul (d : Spec) (a : Spec) (b : Spec)
  /-- IMULH (R137). -/
  | imulh (d : Spec) (a : Spec) (b : Spec)
  /-- IMAD (R137). -/
  | imad (d : Spec) (a : Spec) (b : Spec)
  /-- IMIN (R137). -/
  | imin (d : Spec) (a : Spec) (b : Spec)
  /-- IMAX (R137). -/
  | imax (d : Spec) (a : Spec) (b : Spec)
  /-- IABS (R137). -/
  | iabs (d : Spec) (a : Spec)
  /-- INEG (R137). -/
  | ineg (d : Spec) (a : Spec)
  /-- AND (R139). -/
  | and (d : Spec) (a : Spec) (b : Spec)
  /-- OR (R139). -/
  | or (d : Spec) (a : Spec) (b : Spec)
  /-- XOR (R139). -/
  | xor (d : Spec) (a : Spec) (b : Spec)
  /-- ANDN (R139). -/
  | andn (d : Spec) (a : Spec) (b : Spec)
  /-- SHL (R139). -/
  | shl (d : Spec) (a : Spec) (b : Spec)
  /-- SHR (R139). -/
  | shr (d : Spec) (a : Spec) (b : Spec)
  /-- SAR (R139). -/
  | sar (d : Spec) (a : Spec) (b : Spec)
  /-- ROL (R139). -/
  | rol (d : Spec) (a : Spec) (b : Spec)
  /-- POPC (R139). -/
  | popc (d : Spec) (a : Spec)
  /-- CLZ (R139). -/
  | clz (d : Spec) (a : Spec)
  /-- CTZ (R139). -/
  | ctz (d : Spec) (a : Spec)
  /-- BREV (R139). -/
  | brev (d : Spec) (a : Spec)
  /-- BFX (R140). -/
  | bfx (d : Spec) (a : Spec) (b : Spec)
  /-- BFI (R140). -/
  | bfi (d : Spec) (a : Spec) (b : Spec)
  /-- ICMP (R142). -/
  | icmp (c : BitVec 4) (p : BitVec 3) (a : Spec) (b : Spec)
  /-- SEL (R143). -/
  | sel (d : Spec) (a : Spec) (b : Spec)
  /-- AADD (R144). -/
  | aadd (d : Spec) (a : Spec) (b : Spec)
  /-- AMAD (R144). -/
  | amad (d : Spec) (a : Spec) (b : Spec)
  /-- TIDX (R146). -/
  | tidx (d : Spec) (a : Spec) (n : BitVec 4)
  /-- FRAME (R249). -/
  | frame (a : Spec)
  /-- UNFRAME (R249). -/
  | unframe (a : Spec)
  /-- FADD (R147). -/
  | fadd (d : Spec) (a : Spec) (b : Spec)
  /-- FSUB (R147). -/
  | fsub (d : Spec) (a : Spec) (b : Spec)
  /-- FMUL (R147). -/
  | fmul (d : Spec) (a : Spec) (b : Spec)
  /-- FFMA (R147). -/
  | ffma (d : Spec) (a : Spec) (b : Spec)
  /-- FFMS (R147). -/
  | ffms (d : Spec) (a : Spec) (b : Spec)
  /-- FMIN (R147). -/
  | fmin (d : Spec) (a : Spec) (b : Spec)
  /-- FMAX (R147). -/
  | fmax (d : Spec) (a : Spec) (b : Spec)
  /-- FABS (R147). -/
  | fabs (d : Spec) (a : Spec)
  /-- FNEG (R147). -/
  | fneg (d : Spec) (a : Spec)
  /-- FCMP (R142). -/
  | fcmp (c : BitVec 4) (p : BitVec 3) (a : Spec) (b : Spec)
  /-- FRND (R147). -/
  | frnd (d : Spec) (a : Spec)
  /-- FCLS (R147). -/
  | fcls (d : Spec) (a : Spec)
  /-- CVT (R149). -/
  | cvt (d : Spec) (a : Spec) (e : BitVec 3) (s : BitVec 5)
  /-- PACK2 (R150). -/
  | pack2 (d : Spec) (a : Spec) (b : Spec)
  /-- UNPK (R150). -/
  | unpk (d : Spec) (a : Spec)
  /-- DOT4 (R150). -/
  | dot4 (d : Spec) (a : Spec) (b : Spec)
  /-- SHFL (R151). -/
  | shfl (d : Spec) (a : Spec) (b : Spec)
  /-- SHFLX (R151). -/
  | shflx (d : Spec) (a : Spec) (b : Spec)
  /-- SHFLU (R151). -/
  | shflu (d : Spec) (a : Spec) (b : Spec)
  /-- SHFLD (R151). -/
  | shfld (d : Spec) (a : Spec) (b : Spec)
  /-- RDLANE (R152). -/
  | rdlane (d : Spec) (a : Spec) (b : Spec)
  /-- WRLANE (R152). -/
  | wrlane (d : Spec) (a : Spec) (b : Spec)
  /-- VANY (R153). -/
  | vany (d : Spec) (p : Spec)
  /-- VALL (R153). -/
  | vall (d : Spec) (p : Spec)
  /-- VBAL (R153). -/
  | vbal (d : Spec) (p : Spec)
  /-- REDW (R154). -/
  | redw (d : Spec) (a : Spec) (o : BitVec 3)
  /-- SCANW (R154). -/
  | scanw (d : Spec) (a : Spec) (e : BitVec 1) (o : BitVec 3)
  /-- ACTM (R153). -/
  | actm (d : Spec)
  /-- QSWAPX (R151). -/
  | qswapx (d : Spec) (a : Spec)
  /-- QSWAPY (R151). -/
  | qswapy (d : Spec) (a : Spec)
  /-- QSWAPD (R151). -/
  | qswapd (d : Spec) (a : Spec)
  /-- QBCST (R151). -/
  | qbcst (d : Spec) (a : Spec) (q : BitVec 2)
  /-- QRED (R154). -/
  | qred (d : Spec) (a : Spec) (o : BitVec 3)
  /-- SYSR (R317). -/
  | sysr (d : Spec) (a : Spec)
  /-- SYSW (R317). -/
  | sysw (a : Spec) (b : Spec)
  /-- TIME (R304). -/
  | time (d : Spec) (t : BitVec 1)
  /-- TARM (R305). -/
  | tarm (a : Spec) (b : Spec)
  /-- TWAIT (R306). -/
  | twait (d : Spec) (a : Spec)
  /-- GROW (R55). -/
  | grow (n : BitVec 16)
  /-- SHRINK (R54). -/
  | shrink (n : BitVec 16)
  /-- MARK (R316). -/
  | mark (a : Spec)
  /-- PMRD (R316). -/
  | pmrd (d : Spec) (a : Spec)
  /-- SUCC (R310). -/
  | succ (a : Spec) (b : Spec)
  /-- THCHK (R294). -/
  | thchk (d : Spec) (a : Spec)
  /-- CSTAT (R262). -/
  | cstat (d : Spec)
  /-- LDP (R248). -/
  | ldp (x : Spec) (n : BitVec 8) (la : BitVec 4) (s : BitVec 2)
  /-- STP (R248). -/
  | stp (x : Spec) (n : BitVec 8) (la : BitVec 4) (s : BitVec 2)
  /-- LDS (R250). -/
  | lds (x : Spec) (a : Spec) (la : BitVec 4) (g : BitVec 2) (s : BitVec 2)
  /-- STS (R250). -/
  | sts (x : Spec) (a : Spec) (la : BitVec 4) (g : BitVec 2) (s : BitVec 2)
  /-- ATS (R256). -/
  | ats (x : Spec) (a : Spec) (la : BitVec 4) (o : BitVec 4)
  /-- LDT (R251). -/
  | ldt (x : Spec) (a : Spec) (la : BitVec 4) (u : BitVec 2) (s : BitVec 2)
  /-- STT (R251). -/
  | stt (x : Spec) (a : Spec) (la : BitVec 4) (u : BitVec 2) (s : BitVec 2)
  /-- LDD (R252). -/
  | ldd (x : Spec) (a : Spec) (la : BitVec 4) (k : BitVec 2) (s : BitVec 2)
  /-- STD (R252). -/
  | std (x : Spec) (a : Spec) (la : BitVec 4) (k : BitVec 2) (s : BitVec 2)
  /-- LDDW (R252). -/
  | lddw (x : Spec) (a : Spec) (la : BitVec 4) (k : BitVec 2)
  /-- STDW (R252). -/
  | stdw (x : Spec) (a : Spec) (la : BitVec 4) (k : BitVec 2)
  /-- SLDD (R253). -/
  | sldd (x : Spec) (a : Spec) (la : BitVec 4) (k : BitVec 2) (s : BitVec 2)
  /-- SSTD (R253). -/
  | sstd (x : Spec) (a : Spec) (la : BitVec 4) (k : BitVec 2) (s : BitVec 2)
  /-- ATD (R255). -/
  | atd (x : Spec) (a : Spec) (la : BitVec 4) (o : BitVec 4)
  /-- PFD (R254). -/
  | pfd (a : Spec) (la : BitVec 4) (k : BitVec 2) (h : BitVec 2)
  /-- LDX (R258). -/
  | ldx (x : Spec) (a : Spec) (la : BitVec 4) (s : BitVec 2)
  /-- STX (R258). -/
  | stx (x : Spec) (a : Spec) (la : BitVec 4) (s : BitVec 2)
  /-- ATX (R258). -/
  | atx (x : Spec) (a : Spec) (la : BitVec 4) (o : BitVec 4)
  /-- LDH (R257). -/
  | ldh (x : Spec) (a : Spec) (la : BitVec 4) (k : BitVec 2) (s : BitVec 2)
  /-- STH (R257). -/
  | sth (x : Spec) (a : Spec) (la : BitVec 4) (k : BitVec 2) (s : BitVec 2)
  /-- ATH (R256). -/
  | ath (x : Spec) (a : Spec) (la : BitVec 4) (o : BitVec 4)
  /-- CMT (R208). -/
  | cmt (la : BitVec 4) (v : BitVec 4)
  /-- ABT (R213). -/
  | abt (x : Spec) (la : BitVec 4) (v : BitVec 4)
  /-- ACQ (R223). -/
  | acq (la : BitVec 4) (v : BitVec 4)
  /-- SYNC (R224). -/
  | sync (la : BitVec 4) (v : BitVec 4)
  /-- BINIT (R264). -/
  | binit (a : Spec) (la : BitVec 4) (r : BitVec 1) (k : BitVec 1) (u : BitVec 2)
  /-- BARV (R265). -/
  | barv (x : Spec) (a : Spec) (la : BitVec 4)
  /-- BARW (R265). -/
  | barw (x : Spec) (a : Spec) (la : BitVec 4) (g : BitVec 2)
  /-- BWAIT (R265). -/
  | bwait (x : Spec) (a : Spec) (la : BitVec 4) (g : BitVec 2)
  /-- BREMA (R266). -/
  | brema (x : Spec) (a : Spec) (la : BitVec 4) (g : BitVec 2)
  /-- AEXP (R267). -/
  | aexp (x : Spec) (a : Spec) (la : BitVec 4)
  /-- AWAIT (R267). -/
  | await (x : Spec) (a : Spec) (la : BitVec 4) (g : BitVec 2)
  /-- AREL (R267). -/
  | arel (a : Spec) (la : BitVec 4)
  /-- ACPY (R272). -/
  | acpy (a : Spec) (la : BitVec 4) (t : BitVec 3)
  /-- CWAIT (R275). -/
  | cwait (x : Spec) (a : Spec) (la : BitVec 4)
  /-- CPOLL (R275). -/
  | cpoll (x : Spec) (a : Spec) (la : BitVec 4)
  /-- CPOLL_E (R275). -/
  | cpollE (x : Spec) (a : Spec) (la : BitVec 4)
  /-- SSTART (R277). -/
  | sstart (x : Spec) (a : Spec) (la : BitVec 4)
  /-- SSTOP (R278). -/
  | sstop (x : Spec) (la : BitVec 4)
  /-- SSTAT (R279). -/
  | sstat (x : Spec) (a : Spec) (la : BitVec 4)
  /-- MMX (R285). -/
  | mmx (x : Spec) (a : Spec) (la : BitVec 4) (r : BitVec 1)
  /-- GMMX (R288). -/
  | gmmx (x : Spec) (a : Spec) (la : BitVec 4) (r : BitVec 1)
  /-- RQNT (R289). -/
  | rqnt (x : Spec) (a : Spec) (la : BitVec 4)
  /-- CPACK (R290). -/
  | cpack (x : Spec) (a : Spec) (la : BitVec 4) (u : BitVec 1) (d : BitVec 1)
  /-- CRD (R291). -/
  | crd (x : Spec) (a : Spec) (la : BitVec 4) (g : BitVec 3)
  /-- CWR (R291). -/
  | cwr (x : Spec) (a : Spec) (la : BitVec 4) (g : BitVec 3)
  /-- CZERO (R291). -/
  | czero (a : Spec) (la : BitVec 4)
  /-- THAL (R292). -/
  | thal (x : Spec) (a : Spec) (la : BitVec 4) (b : BitVec 1)
  /-- THFREE (R293). -/
  | thfree (a : Spec) (la : BitVec 4)
  /-- IDIV (R138). -/
  | idiv (x : Spec) (a : Spec) (la : BitVec 4)
  /-- IREM (R138). -/
  | irem (x : Spec) (a : Spec) (la : BitVec 4)
  /-- FDIV (R148). -/
  | fdiv (x : Spec) (a : Spec) (la : BitVec 4)
  /-- FRCP (R148). -/
  | frcp (x : Spec) (a : Spec) (la : BitVec 4)
  /-- FRSQ (R148). -/
  | frsq (x : Spec) (a : Spec) (la : BitVec 4)
  /-- FSQRT (R148). -/
  | fsqrt (x : Spec) (a : Spec) (la : BitVec 4)
  /-- FEXP2 (R148). -/
  | fexp2 (x : Spec) (a : Spec) (la : BitVec 4)
  /-- FLOG2 (R148). -/
  | flog2 (x : Spec) (a : Spec) (la : BitVec 4)
  /-- FSIN (R148). -/
  | fsin (x : Spec) (a : Spec) (la : BitVec 4)
  /-- FCOS (R148). -/
  | fcos (x : Spec) (a : Spec) (la : BitVec 4)
  /-- FTANH (R148). -/
  | ftanh (x : Spec) (a : Spec) (la : BitVec 4)
  /-- SHLD (R145). -/
  | shld (a : Spec) (la : BitVec 4) (n : BitVec 4)
  /-- RECV (R307). -/
  | recv (x : Spec) (a : Spec) (la : BitVec 4) (b : BitVec 1) (q : BitVec 2)
  /-- MSEND (R308). -/
  | msend (x : Spec) (a : Spec) (la : BitVec 4)
  /-- SPAWN (R309). -/
  | spawn (x : Spec) (a : Spec) (la : BitVec 4)
  /-- WAITV (R312). -/
  | waitv (x : Spec) (a : Spec) (la : BitVec 4) (c : BitVec 3)
  /-- WAITV_POLL (R312). -/
  | waitvPoll (x : Spec) (a : Spec) (la : BitVec 4) (c : BitVec 3)
  /-- XLOOP (R298). -/
  | xloop (k : BitVec 3) (len : BitVec 8) (count : Word)
  /-- XSTRIDE (R297). -/
  | xstride (k : BitVec 3) (lo : Word) (hi : Word) (ds : Word)
  /-- XFER (R299). -/
  | xfer (slot : BitVec 4) (nc : Bool) (dp : BitVec 8) (soff : Word) (nb : BitVec 16) (nr : BitVec 16) (sp : Word)
  /-- XGATHER (R300). -/
  | xgather (slot : BitVec 4) (nc : Bool) (dp : BitVec 8) (ioff : Word) (nb : BitVec 16) (nr : BitVec 16) (ip : Word)
  /-- XARRIVE (R301). -/
  | xarrive (slot : BitVec 4) (units : Word)
  /-- XSLOT (R297). -/
  | xslot (slot : BitVec 4) (kind : BitVec 2) (blk : Word) (off : Word) (cell : BitVec 14) (len : BitVec 18)
  /-- XJUMP (R298). -/
  | xjump (off : Word)
  /-- XSCALE (R300). -/
  | xscale (slot : BitVec 4) (nc : Bool) (soff : Word) (doff : Word) (nb : BitVec 16)
  /-- XWAIT (R301). -/
  | xwait (cond : BitVec 2) (off : Word) (value : Word) (mask : Word)
  /-- XFLAG (R301). -/
  | xflag (off : Word) (value : Word)
  /-- LOAD_RETURN (R46). -/
  | loadReturn (wave : Nat) (load : Nat)
  /-- SETTLE_WINDOW_EXPIRY (R207). -/
  | settleWindowExpiry (wave : Nat)
  /-- TRANSLATION_FILL (R200). -/
  | translationFill (die : Nat) (req : Nat)
  /-- TLB_INVALIDATION (R201). -/
  | tlbInvalidation (fn : Nat) (asid : Nat) (lo : Nat) (hi : Nat)
  /-- GROW_GRANT (R55). -/
  | growGrant (wave : Nat)
  /-- COPY_COMPLETE (R274). -/
  | copyComplete (core : Nat) (idx : Nat)
  /-- HOST_WAKE (R370). -/
  | hostWake (fn : Nat) (value : Word)
  /-- PACKET_ACCEPT (R325). -/
  | packetAccept (queue : Nat)
  /-- BLOCK_PLACE (R327). -/
  | blockPlace (block : Nat)
  /-- SPIN_PREEMPTION (R329). -/
  | spinPreemption (block : Nat)
  /-- SLOT_GRANT (R323). -/
  | slotGrant (queue : Nat)
  /-- PREEMPTION (R336). -/
  | preemption (queue : Nat) (save : Bool)
  /-- RESUME (R345). -/
  | resume (fn : Nat) (asid : Nat)
  /-- DEBUGGER_STOP (R343). -/
  | debuggerStop (fn : Nat) (asid : Nat)
  /-- SINGLE_STEP (R346). -/
  | singleStep (wave : Nat) (slice : Slice) (entry : Nat)
  /-- MIGRATION_EXPORT (R359). -/
  | migrationExport (fn : Nat) (asid : Nat)
  /-- MIGRATION_IMPORT (R359). -/
  | migrationImport (fn : Nat) (asid : Nat) (gap : Nat)
  /-- TIMER_FIRE (R305). -/
  | timerFire (fn : Nat) (asid : Nat) (n : Fin 4)
  /-- MESSAGE_ARRIVAL (R349). -/
  | messageArrival (fn : Nat) (q : Fin 4) (src : BitVec 16) (tag : Word) (rby : Word) (da : Bool) (payload : List Byte)
  /-- MESSAGE_DELIVERABLE (R350). -/
  | messageDeliverable (fn : Nat) (asid : Nat) (q : Fin 4)
  /-- PATIENCE_LOW (R356). -/
  | patienceLow (fn : Nat) (asid : Nat) (contract : Nat)
  /-- DEFER_RECEIVE (R358). -/
  | deferReceive (fn : Nat) (asid : Nat) (tag : Word) (ext : Word)
  /-- STRIKE_REPORT (R391). -/
  | strikeReport (core : Nat)
  /-- UNCORE_STRIKE (R392). -/
  | uncoreStrike (die : Nat)
  /-- REPLAY_CHECK (R394). -/
  | replayCheck (core : Nat) (quadrant : Nat) (entry : Nat) (recomputed : List Word)
  /-- SCREEN_COMPARE (R395). -/
  | screenCompare (screen : Nat)
  /-- ECC_ERROR (R396). -/
  | eccError (place : EccPlace) (bank : BitVec 16) (col : BitVec 16) (row : Word) (corrected : Bool)
  /-- TRACE_SAMPLE (R403). -/
  | traceSample (fn : Nat) (asid : Nat) (core : Nat)
  /-- LC_FLUSH (R404). -/
  | lcFlush (fn : Nat) (asid : Nat)
  /-- SELF_TEST_START (R399). -/
  | selfTestStart (core : BitVec 8)
  /-- SELF_TEST_RUN (R399). -/
  | selfTestRun (pass : Bool)
  /-- HINV (R318). -/
  | hinv (value : Word)
  /-- VFSEL (R365). -/
  | vfsel (value : Word)
  /-- VF_ENABLE (R366). -/
  | vfEnable (vf : Nat)
  /-- VF_DISABLE (R365). -/
  | vfDisable (vf : Nat)
  /-- TEAR (R381). -/
  | tear (vf : Nat)
  /-- TEARDOWN_COMPLETE (R381). -/
  | teardownComplete (vf : Nat)
  /-- COUNTER_CLAIM (R375). -/
  | counterClaim (fn : Nat) (asid : Nat) (value : Word)
  /-- HYPERVISOR_CLAIM (R375). -/
  | hypervisorClaim (hcl : BitVec 4)
  /-- CRST (R373). -/
  | crst (value : Word)
  /-- MSGGO (R370). -/
  | msggo (fn : Nat) (q : BitVec 2)
  /-- REGISTER_WRITE (R317). -/
  | registerWrite (target : RegTarget) (value : Dword)
  /-- PEER_REQUEST (R378). -/
  | peerRequest (fn : Nat) (node : BitVec 12) (off : Nat) (ask : PeerAsk)
  /-- PEER_REPLY (R260). -/
  | peerReply (req : Nat) (answer : PeerAnswer)
  /-- RESERVATION_LAPSE (R378). -/
  | reservationLapse (req : Nat)
  /-- FLIT_RECEIVE (R380). -/
  | flitReceive (port : Fin 36) (intact : Bool) (lane : Fin 4) (symbols : Nat)
  /-- KEY_RENEWAL (R380). -/
  | keyRenewal (port : Fin 36) (receive : Bool)
  /-- RECOVERY_PROGRAM_DONE (R408). -/
  | recoveryProgramDone (result : BitVec 4)
  /-- GET_VERSION (R410). -/
  | getVersion (fn : Nat)
  /-- GET_CAPABILITIES (R410). -/
  | getCapabilities (fn : Nat)
  /-- NEGOTIATE_ALGORITHMS (R410). -/
  | negotiateAlgorithms (fn : Nat)
  /-- GET_DIGESTS (R410). -/
  | getDigests (fn : Nat)
  /-- GET_CERTIFICATE (R410). -/
  | getCertificate (fn : Nat) (slot : Nat)
  /-- GET_MEASUREMENTS (R410). -/
  | getMeasurements (fn : Nat) (index : Nat) (nonce : BitVec 256)
  /-- KEY_EXCHANGE (R410). -/
  | keyExchange (fn : Nat)
  /-- FINISH (R410). -/
  | finish (fn : Nat)
  /-- END_SESSION (R410). -/
  | endSession (fn : Nat)
  /-- EXTEND (R411). -/
  | extend (fn : Nat) (payload : List Byte)
  /-- INSTALL_DUMP_KEY (R412). -/
  | installDumpKey (fn : Nat) (payload : List Byte)
  /-- CLEAR_DUMP_KEY (R411). -/
  | clearDumpKey (fn : Nat) (payload : List Byte)
  /-- SVMIN_RAISE (R413). -/
  | svminRaise (version : Nat) (signed : Bool)
  /-- THROTTLE (R414). -/
  | throttle (down : Bool)
  /-- UNASSIGNED_OPCODE (R118). -/
  | unassignedOpcode (word : Word)
  /-- FETCH_FAULT (R99). -/
  | fetchFault (stop : FetchStop)
  /-- UNASSIGNED_COMMAND_CODE (R296). -/
  | unassignedCommandCode (word : Word)
  /-- XWAIT_POLL (R301). -/
  | xwaitPoll (cond : BitVec 2) (off : Word) (value : Word) (mask : Word)
  /-- FAULT_BUFFER_RETRY (R200). -/
  | faultBufferRetry (die : Nat)
  /-- HOST_ENDS_LAUNCH (R339). -/
  | hostEndsLaunch (launch : Nat)
  /-- SCREEN_ABANDON (R395). -/
  | screenAbandon (screen : Nat)
  /-- HOST_COHERENCE_INVALIDATION (R376). -/
  | hostCoherenceInvalidation (sector : Nat) (bytes : List Byte)
  /-- EVICTION (R416). -/
  | eviction (core : Option Nat) (cluster : Option Nat) (sector : Nat)
  /-- NOP (R117). -/
  | nop
  /-- LBRK (R115). -/
  | lbrk
  /-- JOIN (R39). -/
  | join
  /-- RET (R157). -/
  | ret
  /-- EXIT (R158). -/
  | exit
  /-- MEET (R48). -/
  | meet
  /-- YIELD (R313). -/
  | yield
  /-- IDEM (R314). -/
  | idem
  /-- IDEMX (R314). -/
  | idemx
  /-- TRET (R333). -/
  | tret
  /-- BKPT (R315). -/
  | bkpt
  /-- XHALT (R301). -/
  | xhalt
  /-- XFENCE (R301). -/
  | xfence
  /-- ROTATION_ROUND (R323). -/
  | rotationRound
  /-- SLICE_END (R369). -/
  | sliceEnd
  /-- CORRECTED_SUMMARY (R401). -/
  | correctedSummary
  /-- DUMP_START (R405). -/
  | dumpStart
  /-- MODULE_RESET (R406). -/
  | moduleReset
  /-- RECOVERY_PROGRAM (R408). -/
  | recoveryProgram
  /-- RECOVERY_RESET (R408). -/
  | recoveryReset
  /-- THERMAL_TRIP (R414). -/
  | thermalTrip
  deriving DecidableEq, Repr

end Sys2Proof
end

