-- ==== Sys2Proof/WellFormed.lean ====
section
/-!
DEFINITION. Static well-formedness: every modifier field of an instruction holds a code that its
description assigns (R97, R124). What depends on the state (a slice, a mode, a register count) is no
part of it; the meanings check that.
-/

namespace Sys2Proof

/-- The modifier codes of an instruction are assigned ones. A word that is decoded and not
well-formed raises ILLEGAL_OP when it executes (R97); an engine command stops its program (R296). -/
def Instr.wellFormed : Instr → Bool
  | .icmp c _ _ _ => c < 6#4
  | .fcmp c _ _ _ => c < 13#4
  | .cvt _ _ e s => s < 20#5 && (s < 14#5 || e == 0#3)
  | .redw _ _ o => o < 6#3
  | .scanw _ _ _ o => o < 6#3
  | .qred _ _ o => o < 6#3
  | .split _ _ j => j != 0#11
  | .ldt _ _ _ u _ => u < 3#2
  | .stt _ _ _ u _ => u < 3#2
  | .pfd _ _ _ h => h < 3#2
  | .ats _ _ _ o => o < 9#4
  | .atd _ _ _ o => o < 9#4
  | .atx _ _ _ o => o < 9#4
  | .ath _ _ _ o => o < 9#4
  | .cmt _ v => 1#4 ≤ v && v < 6#4
  | .abt _ _ v => v < 4#4
  | .acq _ v => 1#4 ≤ v && v < 6#4
  | .sync _ v => 1#4 ≤ v && v < 6#4
  | .binit _ _ r k u =>
      if r == 1#1 then k == 0#1 && u == 0#2 else u < 3#2 && (k == 1#1 || u == 0#2)
  | .waitv _ _ _ c => c < 6#3
  | .waitvPoll _ _ _ c => c < 6#3
  | .xloop k _ _ => k < 6#3
  | .xstride k _ _ ds => k < 6#3 || ds == 0
  | .xslot _ k _ _ _ _ => k < 3#2
  | .xwait c _ _ _ => c < 3#2
  | .xwaitPoll c _ _ _ => c < 3#2
  | _ => true

end Sys2Proof
end

