-- ==== Sys2Proof/Decode.lean ====
section
/-!
DEFINITION. The decoder, total on any bytes and rejecting by name, and after it the encoder, both
written from the formats of R95 and R96, the specifiers of R100, the opcode map of R117 with each
description's fields, and the command layouts of R296.
-/

namespace Sys2Proof

/-- Why a word is no instruction. -/
inductive DecodeError
  /-- An unassigned primary opcode (R118), raised as ILLEGAL_OP. -/
  | unassigned
  /-- A nonzero reserved field (R97), raised as ILLEGAL_OP. -/
  | reserved
  /-- A fixed operand position that names another operand: the queue of CQPUT and CQGET (R161, R162),
  the selector of TIME (R304). Raised as ILLEGAL_OPERAND. -/
  | operand
  deriving DecidableEq, Repr

/-- The operand that a specifier code names (R100). -/
def Spec.ofCode (c : BitVec 8) : Spec :=
  let n := c.toNat
  if n < 0x80 then .v (Fin.ofNat 128 n)
  else if n < 0xC0 then .s (Fin.ofNat 64 (n - 0x80))
  else if n < 0xC8 then .p (Fin.ofNat 8 (n - 0xC0))
  else if n < 0xCC then .lq (Fin.ofNat 4 (n - 0xC8))
  else if n < 0xCE then .sq (Fin.ofNat 2 (n - 0xCC))
  else if n = 0xCE then .cq
  else if n = 0xCF then .rsv
  else if n < 0xD8 then .special (Fin.ofNat 8 (n - 0xD0))
  else if n < 0xE0 then .rsvd (Fin.ofNat 8 (n - 0xD8))
  else if n < 0xF8 then .ic (Fin.ofNat 24 (n - 0xE0))
  else .fc (Fin.ofNat 8 (n - 0xF8))

/-- The specifier code of an operand (R100). -/
def Spec.code : Spec → BitVec 8
  | .v n => BitVec.ofNat 8 n.val
  | .s n => BitVec.ofNat 8 (0x80 + n.val)
  | .p n => BitVec.ofNat 8 (0xC0 + n.val)
  | .lq n => BitVec.ofNat 8 (0xC8 + n.val)
  | .sq n => BitVec.ofNat 8 (0xCC + n.val)
  | .cq => 0xCE#8
  | .rsv => 0xCF#8
  | .special k => BitVec.ofNat 8 (0xD0 + k.val)
  | .rsvd k => BitVec.ofNat 8 (0xD8 + k.val)
  | .ic n => BitVec.ofNat 8 (0xE0 + n.val)
  | .fc n => BitVec.ofNat 8 (0xF8 + n.val)

/-- Bits [lo+len-1:lo] of a word. -/
def bits (w : Word) (lo len : Nat) : BitVec len := w.extractLsb' lo len

/-- The operand specifier whose low bit is at `lo`. -/
def specAt (w : Word) (lo : Nat) : Spec := Spec.ofCode (bits w lo 8)

/-- The reserved bits [lo+len-1:lo] are zero. -/
def clear (w : Word) (lo len : Nat) : Bool := bits w lo len == 0

/-- An instruction whose reserved fields are zero, else the error. -/
def guardField (ok : Bool) (i : Instr) : Except DecodeError Instr :=
  if ok then .ok i else .error .reserved

/-- Opcodes 0x00 to 0x0F (R117). -/
def decodeRow0 (lo : Nat) (w : Word) : Except DecodeError Instr :=
  match lo with
  | 1 => guardField (clear w 0 24) .nop
  | 2 => guardField (clear w 17 7) (.mode (bits w 0 17))
  | 3 => guardField (clear w 21 3) (.pmode (bits w 17 4) (bits w 0 17))
  | 4 => guardField (clear w 8 8) (.loop (specAt w 16) (bits w 0 8))
  | 5 => .ok (.loopi (bits w 8 16) (bits w 0 8))
  | 6 => guardField (clear w 0 24) .lbrk
  | 7 => .ok (.bra (bits w 0 24))
  | 8 => .ok (.bcc (bits w 23 1) (bits w 0 23))
  | 9 => .ok (.bmz (bits w 21 3) (bits w 0 21))
  | 10 => .ok (.bmnz (bits w 21 3) (bits w 0 21))
  | 11 => .ok (.split (bits w 21 3) (bits w 11 10) (bits w 0 11))
  | 12 => guardField (clear w 0 24) .join
  | 13 => .ok (.call (bits w 0 24))
  | 14 => guardField (clear w 0 24) .ret
  | 15 => guardField (clear w 16 8 && clear w 0 8) (.jmpr (specAt w 8))
  | _ => .error .unassigned

/-- Opcodes 0x10 to 0x1F (R117). -/
def decodeRow1 (lo : Nat) (w : Word) : Except DecodeError Instr :=
  match lo with
  | 0 => guardField (clear w 0 24) .exit
  | 1 =>
    if !clear w 0 8 then .error .reserved
    else if specAt w 16 == .cq then .ok (.cqput (specAt w 8)) else .error .operand
  | 2 =>
    if !clear w 0 8 then .error .reserved
    else if specAt w 8 == .cq then .ok (.cqget (specAt w 16)) else .error .operand
  | 3 => guardField (clear w 0 24) .meet
  | 4 => .ok (.ldi (specAt w 16) (bits w 0 16))
  | 5 => .ok (.ldih (specAt w 16) (bits w 0 16))
  | 6 => guardField (clear w 0 8) (.mov (specAt w 16) (specAt w 8))
  | 7 => guardField (clear w 16 8) (.trap (bits w 0 16))
  | 8 => guardField (clear w 0 24) .yield
  | _ => .error .unassigned

/-- Opcodes 0x20 to 0x2F (R117). -/
def decodeRow2 (lo : Nat) (w : Word) : Except DecodeError Instr :=
  match lo with
  | 0 => .ok (.iadd (specAt w 16) (specAt w 8) (specAt w 0))
  | 1 => .ok (.isub (specAt w 16) (specAt w 8) (specAt w 0))
  | 2 => .ok (.imul (specAt w 16) (specAt w 8) (specAt w 0))
  | 3 => .ok (.imulh (specAt w 16) (specAt w 8) (specAt w 0))
  | 4 => .ok (.imad (specAt w 16) (specAt w 8) (specAt w 0))
  | 5 => .ok (.imin (specAt w 16) (specAt w 8) (specAt w 0))
  | 6 => .ok (.imax (specAt w 16) (specAt w 8) (specAt w 0))
  | 7 => guardField (clear w 0 8) (.iabs (specAt w 16) (specAt w 8))
  | 8 => guardField (clear w 0 8) (.ineg (specAt w 16) (specAt w 8))
  | 9 => .ok (.and (specAt w 16) (specAt w 8) (specAt w 0))
  | 10 => .ok (.or (specAt w 16) (specAt w 8) (specAt w 0))
  | 11 => .ok (.xor (specAt w 16) (specAt w 8) (specAt w 0))
  | 12 => .ok (.andn (specAt w 16) (specAt w 8) (specAt w 0))
  | 13 => .ok (.shl (specAt w 16) (specAt w 8) (specAt w 0))
  | 14 => .ok (.shr (specAt w 16) (specAt w 8) (specAt w 0))
  | 15 => .ok (.sar (specAt w 16) (specAt w 8) (specAt w 0))
  | _ => .error .unassigned

/-- Opcodes 0x30 to 0x3F (R117). -/
def decodeRow3 (lo : Nat) (w : Word) : Except DecodeError Instr :=
  match lo with
  | 0 => .ok (.rol (specAt w 16) (specAt w 8) (specAt w 0))
  | 1 => guardField (clear w 0 8) (.popc (specAt w 16) (specAt w 8))
  | 2 => guardField (clear w 0 8) (.clz (specAt w 16) (specAt w 8))
  | 3 => guardField (clear w 0 8) (.ctz (specAt w 16) (specAt w 8))
  | 4 => guardField (clear w 0 8) (.brev (specAt w 16) (specAt w 8))
  | 5 => .ok (.bfx (specAt w 16) (specAt w 8) (specAt w 0))
  | 6 => .ok (.bfi (specAt w 16) (specAt w 8) (specAt w 0))
  | 7 => guardField (clear w 23 1) (.icmp (bits w 19 4) (bits w 16 3) (specAt w 8) (specAt w 0))
  | 8 => .ok (.sel (specAt w 16) (specAt w 8) (specAt w 0))
  | 9 => .ok (.aadd (specAt w 16) (specAt w 8) (specAt w 0))
  | 10 => .ok (.amad (specAt w 16) (specAt w 8) (specAt w 0))
  | 11 => guardField (clear w 4 4) (.tidx (specAt w 16) (specAt w 8) (bits w 0 4))
  | 12 => guardField (clear w 16 8 && clear w 0 8) (.frame (specAt w 8))
  | 13 => guardField (clear w 16 8 && clear w 0 8) (.unframe (specAt w 8))
  | _ => .error .unassigned

/-- Opcodes 0x60 to 0x6F (R117). -/
def decodeRow6 (lo : Nat) (w : Word) : Except DecodeError Instr :=
  match lo with
  | 0 => .ok (.fadd (specAt w 16) (specAt w 8) (specAt w 0))
  | 1 => .ok (.fsub (specAt w 16) (specAt w 8) (specAt w 0))
  | 2 => .ok (.fmul (specAt w 16) (specAt w 8) (specAt w 0))
  | 3 => .ok (.ffma (specAt w 16) (specAt w 8) (specAt w 0))
  | 4 => .ok (.ffms (specAt w 16) (specAt w 8) (specAt w 0))
  | 5 => .ok (.fmin (specAt w 16) (specAt w 8) (specAt w 0))
  | 6 => .ok (.fmax (specAt w 16) (specAt w 8) (specAt w 0))
  | 7 => guardField (clear w 0 8) (.fabs (specAt w 16) (specAt w 8))
  | 8 => guardField (clear w 0 8) (.fneg (specAt w 16) (specAt w 8))
  | 9 => guardField (clear w 23 1) (.fcmp (bits w 19 4) (bits w 16 3) (specAt w 8) (specAt w 0))
  | 10 => guardField (clear w 0 8) (.frnd (specAt w 16) (specAt w 8))
  | 11 => guardField (clear w 0 8) (.fcls (specAt w 16) (specAt w 8))
  | 12 => .ok (.cvt (specAt w 16) (specAt w 8) (bits w 5 3) (bits w 0 5))
  | 13 => .ok (.pack2 (specAt w 16) (specAt w 8) (specAt w 0))
  | 14 => guardField (clear w 0 8) (.unpk (specAt w 16) (specAt w 8))
  | 15 => .ok (.dot4 (specAt w 16) (specAt w 8) (specAt w 0))
  | _ => .error .unassigned

/-- Opcodes 0x90 to 0x9F (R117). -/
def decodeRow9 (lo : Nat) (w : Word) : Except DecodeError Instr :=
  match lo with
  | 0 => .ok (.shfl (specAt w 16) (specAt w 8) (specAt w 0))
  | 1 => .ok (.shflx (specAt w 16) (specAt w 8) (specAt w 0))
  | 2 => .ok (.shflu (specAt w 16) (specAt w 8) (specAt w 0))
  | 3 => .ok (.shfld (specAt w 16) (specAt w 8) (specAt w 0))
  | 4 => .ok (.rdlane (specAt w 16) (specAt w 8) (specAt w 0))
  | 5 => .ok (.wrlane (specAt w 16) (specAt w 8) (specAt w 0))
  | 6 => guardField (clear w 0 8) (.vany (specAt w 16) (specAt w 8))
  | 7 => guardField (clear w 0 8) (.vall (specAt w 16) (specAt w 8))
  | 8 => guardField (clear w 0 8) (.vbal (specAt w 16) (specAt w 8))
  | 9 => guardField (clear w 3 5) (.redw (specAt w 16) (specAt w 8) (bits w 0 3))
  | 10 => guardField (clear w 4 4) (.scanw (specAt w 16) (specAt w 8) (bits w 3 1) (bits w 0 3))
  | 11 => guardField (clear w 0 16) (.actm (specAt w 16))
  | 12 => guardField (clear w 0 8) (.qswapx (specAt w 16) (specAt w 8))
  | 13 => guardField (clear w 0 8) (.qswapy (specAt w 16) (specAt w 8))
  | 14 => guardField (clear w 0 8) (.qswapd (specAt w 16) (specAt w 8))
  | 15 => guardField (clear w 2 6) (.qbcst (specAt w 16) (specAt w 8) (bits w 0 2))
  | _ => .error .unassigned

/-- Opcodes 0xA0 to 0xAF (R117). -/
def decodeRowA (lo : Nat) (w : Word) : Except DecodeError Instr :=
  match lo with
  | 0 => guardField (clear w 3 5) (.qred (specAt w 16) (specAt w 8) (bits w 0 3))
  | _ => .error .unassigned

/-- Opcodes 0xB0 to 0xBF (R117). -/
def decodeRowB (lo : Nat) (w : Word) : Except DecodeError Instr :=
  match lo with
  | 0 => guardField (clear w 0 8) (.sysr (specAt w 16) (specAt w 8))
  | 1 => guardField (clear w 16 8) (.sysw (specAt w 8) (specAt w 0))
  | 2 =>
    if !clear w 8 8 then .error .reserved
    else if bits w 1 7 == 0x70#7 then .ok (.time (specAt w 16) (bits w 0 1)) else .error .operand
  | 3 => guardField (clear w 16 8) (.tarm (specAt w 8) (specAt w 0))
  | 4 => guardField (clear w 0 8) (.twait (specAt w 16) (specAt w 8))
  | 5 => guardField (clear w 16 8) (.grow (bits w 0 16))
  | 6 => guardField (clear w 16 8) (.shrink (bits w 0 16))
  | 7 => guardField (clear w 0 24) .idem
  | 8 => guardField (clear w 0 24) .idemx
  | 9 => guardField (clear w 0 24) .tret
  | 10 => guardField (clear w 0 24) .bkpt
  | 11 => guardField (clear w 16 8 && clear w 0 8) (.mark (specAt w 8))
  | 12 => guardField (clear w 0 8) (.pmrd (specAt w 16) (specAt w 8))
  | 13 => guardField (clear w 16 8) (.succ (specAt w 8) (specAt w 0))
  | 14 => guardField (clear w 0 8) (.thchk (specAt w 16) (specAt w 8))
  | 15 => guardField (clear w 0 16) (.cstat (specAt w 16))
  | _ => .error .unassigned

/-- Opcodes 0xC0 to 0xCF (R117). -/
def decodeRowC (lo : Nat) (w : Word) : Except DecodeError Instr :=
  match lo with
  | 0 => guardField (clear w 2 2) (.ldp (specAt w 16) (bits w 8 8) (bits w 4 4) (bits w 0 2))
  | 1 => guardField (clear w 2 2) (.stp (specAt w 16) (bits w 8 8) (bits w 4 4) (bits w 0 2))
  | 2 => .ok (.lds (specAt w 16) (specAt w 8) (bits w 4 4) (bits w 2 2) (bits w 0 2))
  | 3 => .ok (.sts (specAt w 16) (specAt w 8) (bits w 4 4) (bits w 2 2) (bits w 0 2))
  | 4 => .ok (.ats (specAt w 16) (specAt w 8) (bits w 4 4) (bits w 0 4))
  | 5 => .ok (.ldt (specAt w 16) (specAt w 8) (bits w 4 4) (bits w 2 2) (bits w 0 2))
  | 6 => .ok (.stt (specAt w 16) (specAt w 8) (bits w 4 4) (bits w 2 2) (bits w 0 2))
  | 7 => .ok (.ldd (specAt w 16) (specAt w 8) (bits w 4 4) (bits w 2 2) (bits w 0 2))
  | 8 => .ok (.std (specAt w 16) (specAt w 8) (bits w 4 4) (bits w 2 2) (bits w 0 2))
  | 9 => guardField (clear w 0 2) (.lddw (specAt w 16) (specAt w 8) (bits w 4 4) (bits w 2 2))
  | 10 => guardField (clear w 0 2) (.stdw (specAt w 16) (specAt w 8) (bits w 4 4) (bits w 2 2))
  | 11 => .ok (.sldd (specAt w 16) (specAt w 8) (bits w 4 4) (bits w 2 2) (bits w 0 2))
  | 12 => .ok (.sstd (specAt w 16) (specAt w 8) (bits w 4 4) (bits w 2 2) (bits w 0 2))
  | 13 => .ok (.atd (specAt w 16) (specAt w 8) (bits w 4 4) (bits w 0 4))
  | 14 => guardField (clear w 16 8) (.pfd (specAt w 8) (bits w 4 4) (bits w 2 2) (bits w 0 2))
  | 15 => guardField (clear w 2 2) (.ldx (specAt w 16) (specAt w 8) (bits w 4 4) (bits w 0 2))
  | _ => .error .unassigned

/-- Opcodes 0xD0 to 0xDF (R117). -/
def decodeRowD (lo : Nat) (w : Word) : Except DecodeError Instr :=
  match lo with
  | 0 => guardField (clear w 2 2) (.stx (specAt w 16) (specAt w 8) (bits w 4 4) (bits w 0 2))
  | 1 => .ok (.atx (specAt w 16) (specAt w 8) (bits w 4 4) (bits w 0 4))
  | 2 => .ok (.ldh (specAt w 16) (specAt w 8) (bits w 4 4) (bits w 2 2) (bits w 0 2))
  | 3 => .ok (.sth (specAt w 16) (specAt w 8) (bits w 4 4) (bits w 2 2) (bits w 0 2))
  | 4 => .ok (.ath (specAt w 16) (specAt w 8) (bits w 4 4) (bits w 0 4))
  | 5 => guardField (clear w 8 16) (.cmt (bits w 4 4) (bits w 0 4))
  | 6 => guardField (clear w 8 8) (.abt (specAt w 16) (bits w 4 4) (bits w 0 4))
  | 7 => guardField (clear w 8 16) (.acq (bits w 4 4) (bits w 0 4))
  | 8 => guardField (clear w 8 16) (.sync (bits w 4 4) (bits w 0 4))
  | 9 => guardField (clear w 16 8) (.binit (specAt w 8) (bits w 4 4) (bits w 3 1) (bits w 2 1) (bits w 0 2))
  | 10 => guardField (clear w 0 4) (.barv (specAt w 16) (specAt w 8) (bits w 4 4))
  | 11 => guardField (clear w 2 2) (.barw (specAt w 16) (specAt w 8) (bits w 4 4) (bits w 0 2))
  | 12 => guardField (clear w 2 2) (.bwait (specAt w 16) (specAt w 8) (bits w 4 4) (bits w 0 2))
  | 13 => guardField (clear w 2 2) (.brema (specAt w 16) (specAt w 8) (bits w 4 4) (bits w 0 2))
  | 14 => guardField (clear w 0 4) (.aexp (specAt w 16) (specAt w 8) (bits w 4 4))
  | 15 => guardField (clear w 2 2) (.await (specAt w 16) (specAt w 8) (bits w 4 4) (bits w 0 2))
  | _ => .error .unassigned

/-- Opcodes 0xE0 to 0xEF (R117). -/
def decodeRowE (lo : Nat) (w : Word) : Except DecodeError Instr :=
  match lo with
  | 0 => guardField (clear w 16 8 && clear w 0 4) (.arel (specAt w 8) (bits w 4 4))
  | 1 => guardField (clear w 16 8 && clear w 3 1) (.acpy (specAt w 8) (bits w 4 4) (bits w 0 3))
  | 2 => guardField (clear w 0 4) (.cwait (specAt w 16) (specAt w 8) (bits w 4 4))
  | 3 =>
    if clear w 0 4 then .ok (.cpoll (specAt w 16) (specAt w 8) (bits w 4 4))
    else guardField (bits w 0 4 == 1#4) (.cpollE (specAt w 16) (specAt w 8) (bits w 4 4))
  | 4 => guardField (clear w 0 4) (.sstart (specAt w 16) (specAt w 8) (bits w 4 4))
  | 5 => guardField (clear w 8 8 && clear w 0 4) (.sstop (specAt w 16) (bits w 4 4))
  | 6 => guardField (clear w 0 4) (.sstat (specAt w 16) (specAt w 8) (bits w 4 4))
  | 7 => guardField (clear w 1 3) (.mmx (specAt w 16) (specAt w 8) (bits w 4 4) (bits w 0 1))
  | 8 => guardField (clear w 1 3) (.gmmx (specAt w 16) (specAt w 8) (bits w 4 4) (bits w 0 1))
  | 9 => guardField (clear w 0 4) (.rqnt (specAt w 16) (specAt w 8) (bits w 4 4))
  | 10 => guardField (clear w 2 2) (.cpack (specAt w 16) (specAt w 8) (bits w 4 4) (bits w 1 1) (bits w 0 1))
  | 11 => guardField (clear w 3 1) (.crd (specAt w 16) (specAt w 8) (bits w 4 4) (bits w 0 3))
  | 12 => guardField (clear w 3 1) (.cwr (specAt w 16) (specAt w 8) (bits w 4 4) (bits w 0 3))
  | 13 => guardField (clear w 16 8 && clear w 0 4) (.czero (specAt w 8) (bits w 4 4))
  | 14 => guardField (clear w 1 3) (.thal (specAt w 16) (specAt w 8) (bits w 4 4) (bits w 0 1))
  | 15 => guardField (clear w 16 8 && clear w 0 4) (.thfree (specAt w 8) (bits w 4 4))
  | _ => .error .unassigned

/-- Opcodes 0xF0 to 0xFF (R117). -/
def decodeRowF (lo : Nat) (w : Word) : Except DecodeError Instr :=
  match lo with
  | 0 => guardField (clear w 0 4) (.idiv (specAt w 16) (specAt w 8) (bits w 4 4))
  | 1 => guardField (clear w 0 4) (.irem (specAt w 16) (specAt w 8) (bits w 4 4))
  | 2 => guardField (clear w 0 4) (.fdiv (specAt w 16) (specAt w 8) (bits w 4 4))
  | 3 => guardField (clear w 0 4) (.frcp (specAt w 16) (specAt w 8) (bits w 4 4))
  | 4 => guardField (clear w 0 4) (.frsq (specAt w 16) (specAt w 8) (bits w 4 4))
  | 5 => guardField (clear w 0 4) (.fsqrt (specAt w 16) (specAt w 8) (bits w 4 4))
  | 6 => guardField (clear w 0 4) (.fexp2 (specAt w 16) (specAt w 8) (bits w 4 4))
  | 7 => guardField (clear w 0 4) (.flog2 (specAt w 16) (specAt w 8) (bits w 4 4))
  | 8 => guardField (clear w 0 4) (.fsin (specAt w 16) (specAt w 8) (bits w 4 4))
  | 9 => guardField (clear w 0 4) (.fcos (specAt w 16) (specAt w 8) (bits w 4 4))
  | 10 => guardField (clear w 0 4) (.ftanh (specAt w 16) (specAt w 8) (bits w 4 4))
  | 11 => guardField (clear w 16 8) (.shld (specAt w 8) (bits w 4 4) (bits w 0 4))
  | 12 => guardField (clear w 3 1) (.recv (specAt w 16) (specAt w 8) (bits w 4 4) (bits w 2 1) (bits w 0 2))
  | 13 => guardField (clear w 0 4) (.msend (specAt w 16) (specAt w 8) (bits w 4 4))
  | 14 => guardField (clear w 0 4) (.spawn (specAt w 16) (specAt w 8) (bits w 4 4))
  | 15 => guardField (clear w 3 1) (.waitv (specAt w 16) (specAt w 8) (bits w 4 4) (bits w 0 3))
  | _ => .error .unassigned

/-- The instruction a 32-bit word holds, or why it holds none (R95, R97, R117, R118). -/
def decodeWord (w : Word) : Except DecodeError Instr :=
  let lo := (bits w 24 4).toNat
  match (bits w 28 4).toNat with
  | 0 => decodeRow0 lo w
  | 1 => decodeRow1 lo w
  | 2 => decodeRow2 lo w
  | 3 => decodeRow3 lo w
  | 6 => decodeRow6 lo w
  | 9 => decodeRow9 lo w
  | 10 => decodeRowA lo w
  | 11 => decodeRowB lo w
  | 12 => decodeRowC lo w
  | 13 => decodeRowD lo w
  | 14 => decodeRowE lo w
  | 15 => decodeRowF lo w
  | _ => .error .unassigned

/-- The little-endian word of four bytes, the first lowest (R3, R95). -/
def wordOfBytes (bs : List Byte) : Word :=
  bs.getD 3 0 ++ bs.getD 2 0 ++ bs.getD 1 0 ++ bs.getD 0 0

/-- The four bytes of a word, little-endian. -/
def bytesOfWord (w : Word) : List Byte :=
  [w.extractLsb' 0 8, w.extractLsb' 8 8, w.extractLsb' 16 8, w.extractLsb' 24 8]

/-- The command that the four words of 16 bytes hold; none where the code is unassigned or a reserved
bit is nonzero, which stops the program with engine fault 1 (R296). -/
def decodeCommand (w0 w1 w2 w3 : Word) : Option Instr :=
  let z := fun (lo len : Nat) => clear w0 lo len
  let ok := fun (b : Bool) (i : Instr) => if b then some i else none
  match (bits w0 0 8).toNat with
  | 0x01 => ok (z 11 5 && z 24 8 && w2 == 0 && w3 == 0) (.xloop (bits w0 8 3) (bits w0 16 8) w1)
  | 0x02 => ok (z 11 21 && (bits w0 8 3 < 6#3 || w3 == 0)) (.xstride (bits w0 8 3) w1 w2 w3)
  | 0x03 => ok (z 13 11) (.xfer (bits w0 8 4) (bits w0 12 1 == 1#1) (bits w0 24 8) w1
      (bits w2 0 16) (bits w2 16 16) w3)
  | 0x04 => ok (z 13 11) (.xgather (bits w0 8 4) (bits w0 12 1 == 1#1) (bits w0 24 8) w1
      (bits w2 0 16) (bits w2 16 16) w3)
  | 0x05 => ok (z 12 20 && w2 == 0 && w3 == 0) (.xarrive (bits w0 8 4) w1)
  | 0x06 => ok (z 14 18) (.xslot (bits w0 8 4) (bits w0 12 2) w1 w2 (bits w3 0 14) (bits w3 14 18))
  | 0x07 => ok (z 8 24 && w2 == 0 && w3 == 0) (.xjump w1)
  | 0x08 => ok (z 8 24 && w1 == 0 && w2 == 0 && w3 == 0) .xhalt
  | 0x09 => ok (z 8 24 && w1 == 0 && w2 == 0 && w3 == 0) .xfence
  | 0x0A => ok (z 13 19 && clear w3 16 16) (.xscale (bits w0 8 4) (bits w0 12 1 == 1#1) w1 w2 (bits w3 0 16))
  | 0x0B => ok (z 10 22) (.xwait (bits w0 8 2) w1 w2 w3)
  | 0x0C => ok (z 8 24 && w3 == 0) (.xflag w1 w2)
  | _ => none

/-- The Tchieg instruction at the head of a list of bytes. -/
def decodeBytes (bs : List Byte) : Option Instr :=
  match decodeWord (wordOfBytes bs) with
  | .ok i => some i
  | .error _ => none

/-- The engine command at the head of a list of bytes. -/
def decodeCommandBytes (bs : List Byte) : Option Instr :=
  decodeCommand (wordOfBytes bs) (wordOfBytes (bs.drop 4)) (wordOfBytes (bs.drop 8))
    (wordOfBytes (bs.drop 12))

/-- The bytes of a number, `n` of them, the lowest first. -/
def bytesOfNat : Nat → Nat → List Byte
  | 0, _ => []
  | n + 1, w => BitVec.ofNat 8 w :: bytesOfNat n (w / 256)

/-- What the decoder reads from an instruction whose bits are `w`: one Tchieg word, or a 16-byte
command where the row is longer than a word. -/
def decodeTableWord (nbits w : Nat) : Option Instr :=
  if nbits ≤ 32 then decodeBytes (bytesOfNat 4 w) else decodeCommandBytes (bytesOfNat 16 w)

/-! The encoder. -/

/-- The word of a Tchieg instruction; none for a command or an event. -/
def encodeWord : Instr → Option Word
  | .nop => some (0x01#8 ++ 0x0#24)
  | .mode i => some (0x02#8 ++ 0x0#7 ++ i)
  | .pmode n i => some (0x03#8 ++ 0x0#3 ++ n ++ i)
  | .loop s l => some (0x04#8 ++ s.code ++ 0x0#8 ++ l)
  | .loopi c l => some (0x05#8 ++ c ++ l)
  | .lbrk => some (0x06#8 ++ 0x0#24)
  | .bra i => some (0x07#8 ++ i)
  | .bcc t i => some (0x08#8 ++ t ++ i)
  | .bmz p i => some (0x09#8 ++ p ++ i)
  | .bmnz p i => some (0x0A#8 ++ p ++ i)
  | .split p t j => some (0x0B#8 ++ p ++ t ++ j)
  | .join => some (0x0C#8 ++ 0x0#24)
  | .call i => some (0x0D#8 ++ i)
  | .ret => some (0x0E#8 ++ 0x0#24)
  | .jmpr a => some (0x0F#8 ++ 0x0#8 ++ a.code ++ 0x0#8)
  | .exit => some (0x10#8 ++ 0x0#24)
  | .cqput a => some (0x11#8 ++ 0xce#8 ++ a.code ++ 0x0#8)
  | .cqget d => some (0x12#8 ++ d.code ++ 0xce00#16)
  | .meet => some (0x13#8 ++ 0x0#24)
  | .ldi d i => some (0x14#8 ++ d.code ++ i)
  | .ldih d i => some (0x15#8 ++ d.code ++ i)
  | .mov d a => some (0x16#8 ++ d.code ++ a.code ++ 0x0#8)
  | .trap i => some (0x17#8 ++ 0x0#8 ++ i)
  | .yield => some (0x18#8 ++ 0x0#24)
  | .iadd d a b => some (0x20#8 ++ d.code ++ a.code ++ b.code)
  | .isub d a b => some (0x21#8 ++ d.code ++ a.code ++ b.code)
  | .imul d a b => some (0x22#8 ++ d.code ++ a.code ++ b.code)
  | .imulh d a b => some (0x23#8 ++ d.code ++ a.code ++ b.code)
  | .imad d a b => some (0x24#8 ++ d.code ++ a.code ++ b.code)
  | .imin d a b => some (0x25#8 ++ d.code ++ a.code ++ b.code)
  | .imax d a b => some (0x26#8 ++ d.code ++ a.code ++ b.code)
  | .iabs d a => some (0x27#8 ++ d.code ++ a.code ++ 0x0#8)
  | .ineg d a => some (0x28#8 ++ d.code ++ a.code ++ 0x0#8)
  | .and d a b => some (0x29#8 ++ d.code ++ a.code ++ b.code)
  | .or d a b => some (0x2A#8 ++ d.code ++ a.code ++ b.code)
  | .xor d a b => some (0x2B#8 ++ d.code ++ a.code ++ b.code)
  | .andn d a b => some (0x2C#8 ++ d.code ++ a.code ++ b.code)
  | .shl d a b => some (0x2D#8 ++ d.code ++ a.code ++ b.code)
  | .shr d a b => some (0x2E#8 ++ d.code ++ a.code ++ b.code)
  | .sar d a b => some (0x2F#8 ++ d.code ++ a.code ++ b.code)
  | .rol d a b => some (0x30#8 ++ d.code ++ a.code ++ b.code)
  | .popc d a => some (0x31#8 ++ d.code ++ a.code ++ 0x0#8)
  | .clz d a => some (0x32#8 ++ d.code ++ a.code ++ 0x0#8)
  | .ctz d a => some (0x33#8 ++ d.code ++ a.code ++ 0x0#8)
  | .brev d a => some (0x34#8 ++ d.code ++ a.code ++ 0x0#8)
  | .bfx d a b => some (0x35#8 ++ d.code ++ a.code ++ b.code)
  | .bfi d a b => some (0x36#8 ++ d.code ++ a.code ++ b.code)
  | .icmp c p a b => some (0x37#8 ++ 0x0#1 ++ c ++ p ++ a.code ++ b.code)
  | .sel d a b => some (0x38#8 ++ d.code ++ a.code ++ b.code)
  | .aadd d a b => some (0x39#8 ++ d.code ++ a.code ++ b.code)
  | .amad d a b => some (0x3A#8 ++ d.code ++ a.code ++ b.code)
  | .tidx d a n => some (0x3B#8 ++ d.code ++ a.code ++ 0x0#4 ++ n)
  | .frame a => some (0x3C#8 ++ 0x0#8 ++ a.code ++ 0x0#8)
  | .unframe a => some (0x3D#8 ++ 0x0#8 ++ a.code ++ 0x0#8)
  | .fadd d a b => some (0x60#8 ++ d.code ++ a.code ++ b.code)
  | .fsub d a b => some (0x61#8 ++ d.code ++ a.code ++ b.code)
  | .fmul d a b => some (0x62#8 ++ d.code ++ a.code ++ b.code)
  | .ffma d a b => some (0x63#8 ++ d.code ++ a.code ++ b.code)
  | .ffms d a b => some (0x64#8 ++ d.code ++ a.code ++ b.code)
  | .fmin d a b => some (0x65#8 ++ d.code ++ a.code ++ b.code)
  | .fmax d a b => some (0x66#8 ++ d.code ++ a.code ++ b.code)
  | .fabs d a => some (0x67#8 ++ d.code ++ a.code ++ 0x0#8)
  | .fneg d a => some (0x68#8 ++ d.code ++ a.code ++ 0x0#8)
  | .fcmp c p a b => some (0x69#8 ++ 0x0#1 ++ c ++ p ++ a.code ++ b.code)
  | .frnd d a => some (0x6A#8 ++ d.code ++ a.code ++ 0x0#8)
  | .fcls d a => some (0x6B#8 ++ d.code ++ a.code ++ 0x0#8)
  | .cvt d a e s => some (0x6C#8 ++ d.code ++ a.code ++ e ++ s)
  | .pack2 d a b => some (0x6D#8 ++ d.code ++ a.code ++ b.code)
  | .unpk d a => some (0x6E#8 ++ d.code ++ a.code ++ 0x0#8)
  | .dot4 d a b => some (0x6F#8 ++ d.code ++ a.code ++ b.code)
  | .shfl d a b => some (0x90#8 ++ d.code ++ a.code ++ b.code)
  | .shflx d a b => some (0x91#8 ++ d.code ++ a.code ++ b.code)
  | .shflu d a b => some (0x92#8 ++ d.code ++ a.code ++ b.code)
  | .shfld d a b => some (0x93#8 ++ d.code ++ a.code ++ b.code)
  | .rdlane d a b => some (0x94#8 ++ d.code ++ a.code ++ b.code)
  | .wrlane d a b => some (0x95#8 ++ d.code ++ a.code ++ b.code)
  | .vany d p => some (0x96#8 ++ d.code ++ p.code ++ 0x0#8)
  | .vall d p => some (0x97#8 ++ d.code ++ p.code ++ 0x0#8)
  | .vbal d p => some (0x98#8 ++ d.code ++ p.code ++ 0x0#8)
  | .redw d a o => some (0x99#8 ++ d.code ++ a.code ++ 0x0#5 ++ o)
  | .scanw d a e o => some (0x9A#8 ++ d.code ++ a.code ++ 0x0#4 ++ e ++ o)
  | .actm d => some (0x9B#8 ++ d.code ++ 0x0#16)
  | .qswapx d a => some (0x9C#8 ++ d.code ++ a.code ++ 0x0#8)
  | .qswapy d a => some (0x9D#8 ++ d.code ++ a.code ++ 0x0#8)
  | .qswapd d a => some (0x9E#8 ++ d.code ++ a.code ++ 0x0#8)
  | .qbcst d a q => some (0x9F#8 ++ d.code ++ a.code ++ 0x0#6 ++ q)
  | .qred d a o => some (0xA0#8 ++ d.code ++ a.code ++ 0x0#5 ++ o)
  | .sysr d a => some (0xB0#8 ++ d.code ++ a.code ++ 0x0#8)
  | .sysw a b => some (0xB1#8 ++ 0x0#8 ++ a.code ++ b.code)
  | .time d t => some (0xB2#8 ++ d.code ++ 0x70#15 ++ t)
  | .tarm a b => some (0xB3#8 ++ 0x0#8 ++ a.code ++ b.code)
  | .twait d a => some (0xB4#8 ++ d.code ++ a.code ++ 0x0#8)
  | .grow n => some (0xB5#8 ++ 0x0#8 ++ n)
  | .shrink n => some (0xB6#8 ++ 0x0#8 ++ n)
  | .idem => some (0xB7#8 ++ 0x0#24)
  | .idemx => some (0xB8#8 ++ 0x0#24)
  | .tret => some (0xB9#8 ++ 0x0#24)
  | .bkpt => some (0xBA#8 ++ 0x0#24)
  | .mark a => some (0xBB#8 ++ 0x0#8 ++ a.code ++ 0x0#8)
  | .pmrd d a => some (0xBC#8 ++ d.code ++ a.code ++ 0x0#8)
  | .succ a b => some (0xBD#8 ++ 0x0#8 ++ a.code ++ b.code)
  | .thchk d a => some (0xBE#8 ++ d.code ++ a.code ++ 0x0#8)
  | .cstat d => some (0xBF#8 ++ d.code ++ 0x0#16)
  | .ldp x n l s => some (0xC0#8 ++ x.code ++ n ++ l ++ 0x0#2 ++ s)
  | .stp x n l s => some (0xC1#8 ++ x.code ++ n ++ l ++ 0x0#2 ++ s)
  | .lds x a l g s => some (0xC2#8 ++ x.code ++ a.code ++ l ++ g ++ s)
  | .sts x a l g s => some (0xC3#8 ++ x.code ++ a.code ++ l ++ g ++ s)
  | .ats x a l o => some (0xC4#8 ++ x.code ++ a.code ++ l ++ o)
  | .ldt x a l u s => some (0xC5#8 ++ x.code ++ a.code ++ l ++ u ++ s)
  | .stt x a l u s => some (0xC6#8 ++ x.code ++ a.code ++ l ++ u ++ s)
  | .ldd x a l k s => some (0xC7#8 ++ x.code ++ a.code ++ l ++ k ++ s)
  | .std x a l k s => some (0xC8#8 ++ x.code ++ a.code ++ l ++ k ++ s)
  | .lddw x a l k => some (0xC9#8 ++ x.code ++ a.code ++ l ++ k ++ 0x0#2)
  | .stdw x a l k => some (0xCA#8 ++ x.code ++ a.code ++ l ++ k ++ 0x0#2)
  | .sldd x a l k s => some (0xCB#8 ++ x.code ++ a.code ++ l ++ k ++ s)
  | .sstd x a l k s => some (0xCC#8 ++ x.code ++ a.code ++ l ++ k ++ s)
  | .atd x a l o => some (0xCD#8 ++ x.code ++ a.code ++ l ++ o)
  | .pfd a l k h => some (0xCE#8 ++ 0x0#8 ++ a.code ++ l ++ k ++ h)
  | .ldx x a l s => some (0xCF#8 ++ x.code ++ a.code ++ l ++ 0x0#2 ++ s)
  | .stx x a l s => some (0xD0#8 ++ x.code ++ a.code ++ l ++ 0x0#2 ++ s)
  | .atx x a l o => some (0xD1#8 ++ x.code ++ a.code ++ l ++ o)
  | .ldh x a l k s => some (0xD2#8 ++ x.code ++ a.code ++ l ++ k ++ s)
  | .sth x a l k s => some (0xD3#8 ++ x.code ++ a.code ++ l ++ k ++ s)
  | .ath x a l o => some (0xD4#8 ++ x.code ++ a.code ++ l ++ o)
  | .cmt l v => some (0xD5#8 ++ 0x0#16 ++ l ++ v)
  | .abt x l v => some (0xD6#8 ++ x.code ++ 0x0#8 ++ l ++ v)
  | .acq l v => some (0xD7#8 ++ 0x0#16 ++ l ++ v)
  | .sync l v => some (0xD8#8 ++ 0x0#16 ++ l ++ v)
  | .binit a l r k u => some (0xD9#8 ++ 0x0#8 ++ a.code ++ l ++ r ++ k ++ u)
  | .barv x a l => some (0xDA#8 ++ x.code ++ a.code ++ l ++ 0x0#4)
  | .barw x a l g => some (0xDB#8 ++ x.code ++ a.code ++ l ++ 0x0#2 ++ g)
  | .bwait x a l g => some (0xDC#8 ++ x.code ++ a.code ++ l ++ 0x0#2 ++ g)
  | .brema x a l g => some (0xDD#8 ++ x.code ++ a.code ++ l ++ 0x0#2 ++ g)
  | .aexp x a l => some (0xDE#8 ++ x.code ++ a.code ++ l ++ 0x0#4)
  | .await x a l g => some (0xDF#8 ++ x.code ++ a.code ++ l ++ 0x0#2 ++ g)
  | .arel a l => some (0xE0#8 ++ 0x0#8 ++ a.code ++ l ++ 0x0#4)
  | .acpy a l t => some (0xE1#8 ++ 0x0#8 ++ a.code ++ l ++ 0x0#1 ++ t)
  | .cwait x a l => some (0xE2#8 ++ x.code ++ a.code ++ l ++ 0x0#4)
  | .cpoll x a l => some (0xE3#8 ++ x.code ++ a.code ++ l ++ 0x0#4)
  | .cpollE x a l => some (0xE3#8 ++ x.code ++ a.code ++ l ++ 0x1#4)
  | .sstart x a l => some (0xE4#8 ++ x.code ++ a.code ++ l ++ 0x0#4)
  | .sstop x l => some (0xE5#8 ++ x.code ++ 0x0#8 ++ l ++ 0x0#4)
  | .sstat x a l => some (0xE6#8 ++ x.code ++ a.code ++ l ++ 0x0#4)
  | .mmx x a l r => some (0xE7#8 ++ x.code ++ a.code ++ l ++ 0x0#3 ++ r)
  | .gmmx x a l r => some (0xE8#8 ++ x.code ++ a.code ++ l ++ 0x0#3 ++ r)
  | .rqnt x a l => some (0xE9#8 ++ x.code ++ a.code ++ l ++ 0x0#4)
  | .cpack x a l u d => some (0xEA#8 ++ x.code ++ a.code ++ l ++ 0x0#2 ++ u ++ d)
  | .crd x a l g => some (0xEB#8 ++ x.code ++ a.code ++ l ++ 0x0#1 ++ g)
  | .cwr x a l g => some (0xEC#8 ++ x.code ++ a.code ++ l ++ 0x0#1 ++ g)
  | .czero a l => some (0xED#8 ++ 0x0#8 ++ a.code ++ l ++ 0x0#4)
  | .thal x a l b => some (0xEE#8 ++ x.code ++ a.code ++ l ++ 0x0#3 ++ b)
  | .thfree a l => some (0xEF#8 ++ 0x0#8 ++ a.code ++ l ++ 0x0#4)
  | .idiv x a l => some (0xF0#8 ++ x.code ++ a.code ++ l ++ 0x0#4)
  | .irem x a l => some (0xF1#8 ++ x.code ++ a.code ++ l ++ 0x0#4)
  | .fdiv x a l => some (0xF2#8 ++ x.code ++ a.code ++ l ++ 0x0#4)
  | .frcp x a l => some (0xF3#8 ++ x.code ++ a.code ++ l ++ 0x0#4)
  | .frsq x a l => some (0xF4#8 ++ x.code ++ a.code ++ l ++ 0x0#4)
  | .fsqrt x a l => some (0xF5#8 ++ x.code ++ a.code ++ l ++ 0x0#4)
  | .fexp2 x a l => some (0xF6#8 ++ x.code ++ a.code ++ l ++ 0x0#4)
  | .flog2 x a l => some (0xF7#8 ++ x.code ++ a.code ++ l ++ 0x0#4)
  | .fsin x a l => some (0xF8#8 ++ x.code ++ a.code ++ l ++ 0x0#4)
  | .fcos x a l => some (0xF9#8 ++ x.code ++ a.code ++ l ++ 0x0#4)
  | .ftanh x a l => some (0xFA#8 ++ x.code ++ a.code ++ l ++ 0x0#4)
  | .shld a l n => some (0xFB#8 ++ 0x0#8 ++ a.code ++ l ++ n)
  | .recv x a l b q => some (0xFC#8 ++ x.code ++ a.code ++ l ++ 0x0#1 ++ b ++ q)
  | .msend x a l => some (0xFD#8 ++ x.code ++ a.code ++ l ++ 0x0#4)
  | .spawn x a l => some (0xFE#8 ++ x.code ++ a.code ++ l ++ 0x0#4)
  | .waitv x a l c => some (0xFF#8 ++ x.code ++ a.code ++ l ++ 0x0#1 ++ c)
  | _ => none

/-- The four words of an engine command (R296); none for anything else. -/
def encodeCommand : Instr → Option (List Word)
  | .xloop k len count => some [0#8 ++ len ++ 0#5 ++ k ++ 0x01#8, count, 0, 0]
  | .xstride k lo hi ds => some [0#21 ++ k ++ 0x02#8, lo, hi, ds]
  | .xfer s nc dp off nb nr sp =>
      some [dp ++ 0#11 ++ BitVec.ofBool nc ++ s ++ 0x03#8, off, nr ++ nb, sp]
  | .xgather s nc dp off nb nr sp =>
      some [dp ++ 0#11 ++ BitVec.ofBool nc ++ s ++ 0x04#8, off, nr ++ nb, sp]
  | .xarrive s u => some [0#20 ++ s ++ 0x05#8, u, 0, 0]
  | .xslot s k b off cell len => some [0#18 ++ k ++ s ++ 0x06#8, b, off, len ++ cell]
  | .xjump off => some [0x07#32, off, 0, 0]
  | .xhalt => some [0x08#32, 0, 0, 0]
  | .xfence => some [0x09#32, 0, 0, 0]
  | .xscale s nc off d nb => some [0#19 ++ BitVec.ofBool nc ++ s ++ 0x0A#8, off, d, 0#16 ++ nb]
  | .xwait c off v m => some [0#22 ++ c ++ 0x0B#8, off, v, m]
  | .xflag off v => some [0x0C#32, off, v, 0]
  | _ => none

/-- The words of an instruction as memory holds them: one for a Tchieg instruction, four for an
engine command, none for an event. -/
def encode (i : Instr) : List Word :=
  match encodeWord i with
  | some w => [w]
  | none => (encodeCommand i).getD []

end Sys2Proof
end

