-- ==== Sys2Proof/Machine/Float.lean ====
section
/-!
DEFINITION. Number formats and arithmetic (R66 to R92): exact values, rounding into the binary
formats, KD8, and the exact sums of the matrix units. A value is exact until `roundTo` or
`kd8Encode` is applied to it.
-/

namespace Sys2Proof.Machine

/-- A binary format by its exponent and fraction widths (R68). -/
structure Fmt where
  eb : Nat
  fb : Nat
  deriving DecidableEq, Repr

def f16 : Fmt := { eb := 5, fb := 10 }
def bf16 : Fmt := { eb := 8, fb := 7 }
def f32 : Fmt := { eb := 8, fb := 23 }
def f64 : Fmt := { eb := 11, fb := 52 }

/-- Width in bits. -/
def Fmt.width (f : Fmt) : Nat := 1 + f.eb + f.fb
/-- The exponent bias. -/
def Fmt.bias (f : Fmt) : Nat := 2 ^ (f.eb - 1) - 1
/-- The canonical quiet NaN (R68). -/
def Fmt.nan (f : Fmt) : Nat := (2 ^ f.eb - 1) * 2 ^ f.fb + 2 ^ (f.fb - 1)
/-- Infinity without its sign. -/
def Fmt.inf (f : Fmt) : Nat := (2 ^ f.eb - 1) * 2 ^ f.fb
/-- The sign bit. -/
def Fmt.sign (f : Fmt) : Nat := 2 ^ (f.eb + f.fb)

/-- An exact value: NaN, an infinity, or a signed quotient, whose sign a zero keeps. -/
inductive XReal
  | nan
  | inf (neg : Bool)
  | fin (neg : Bool) (num den : Nat)
  deriving DecidableEq, Repr

/-- The rounding modes of R72. -/
inductive Rm
  | rne | rtz | rup | rdn | rna
  deriving DecidableEq, Repr

/-- The value that the bits of a format hold; every NaN alike (R69). -/
def Fmt.decode (f : Fmt) (x : Nat) : XReal :=
  let neg := x / f.sign % 2 == 1
  let e := x / 2 ^ f.fb % 2 ^ f.eb
  let m := x % 2 ^ f.fb
  if e == 2 ^ f.eb - 1 then (if m == 0 then .inf neg else .nan)
  else
    let sig := if e == 0 then m else 2 ^ f.fb + m
    let ee := if e == 0 then 1 else e
    -- sig · 2^(ee − bias − fb)
    let up := ee
    let down := f.bias + f.fb
    if down ≤ up then .fin neg (sig * 2 ^ (up - down)) 1 else .fin neg sig (2 ^ (down - up))

/-- The bits are a subnormal of the format. -/
def Fmt.isSub (f : Fmt) (x : Nat) : Bool := x / 2 ^ f.fb % 2 ^ f.eb == 0 && x % 2 ^ f.fb != 0

/-- The exponent e with 2^e ≤ num/den < 2^(e+1), for nonzero num. -/
def ilog2 (num den : Nat) : Int :=
  let e : Int := (Nat.log2 num : Int) - Nat.log2 den
  let ge := if 0 ≤ e then den * 2 ^ e.toNat ≤ num else den ≤ num * 2 ^ (-e).toNat
  if ge then e else e - 1

/-- Whether the magnitude rounds up, from its parity and the remainder of the division (R72). -/
def roundsUp (rm : Rm) (neg odd : Bool) (rem den : Nat) : Bool :=
  if rem == 0 then false else
  match rm with
  | .rne => 2 * rem > den || (2 * rem == den && odd)
  | .rna => 2 * rem ≥ den
  | .rtz => false
  | .rup => !neg
  | .rdn => neg

/-- The magnitude bits of a nonzero quotient in a format, and whether they exceed the finite range. -/
def Fmt.roundMag (f : Fmt) (rm : Rm) (neg : Bool) (num den : Nat) : Nat :=
  let emin : Int := 1 - f.bias
  let e := max (ilog2 num den) emin
  let q : Int := e - f.fb
  let n := if 0 ≤ q then num else num * 2 ^ (-q).toNat
  let d := if 0 ≤ q then den * 2 ^ q.toNat else den
  let m := n / d
  let m := if roundsUp rm neg (m % 2 == 1) (n % d) d then m + 1 else m
  if m < 2 ^ f.fb then m else (e - emin + 1).toNat * 2 ^ f.fb + (m - 2 ^ f.fb)

/-- What an overflow delivers (R73). -/
def Fmt.overflow (f : Fmt) (rm : Rm) (neg : Bool) : Nat :=
  match rm, neg with
  | .rtz, _ => f.inf - 1
  | .rup, true => f.inf - 1
  | .rdn, false => f.inf - 1
  | _, _ => f.inf

/-- RoundTo(fmt, x, rm) of R14 and R73. -/
def Fmt.roundTo (f : Fmt) (rm : Rm) (x : XReal) : Nat :=
  let s := fun (neg : Bool) (m : Nat) => if neg then f.sign + m else m
  match x with
  | .nan => f.nan
  | .inf neg => s neg f.inf
  | .fin neg num den =>
    if num == 0 then s neg 0
    else
      let m := f.roundMag rm neg num den
      if f.inf ≤ m then s neg (f.overflow rm neg) else s neg m

/-- The format is one that FTZ acts on (R70). -/
def Fmt.flushes (f : Fmt) : Bool := f == f32 || f == f64

/-- An operand read under FTZ (R70). -/
def Fmt.read (f : Fmt) (ftz : Bool) (x : Nat) : XReal :=
  if ftz && f.flushes && f.isSub x then .fin (x / f.sign % 2 == 1) 0 1 else f.decode x

/-- A result rounded and flushed under FTZ (R70). -/
def Fmt.write (f : Fmt) (ftz : Bool) (rm : Rm) (x : XReal) : Nat :=
  let r := f.roundTo rm x
  if ftz && f.flushes && f.isSub r then r / f.sign * f.sign else r

/-! Exact arithmetic with the special values of IEEE 754. -/

def XReal.neg : XReal → XReal
  | .nan => .nan
  | .inf s => .inf (!s)
  | .fin s n d => .fin (!s) n d

def XReal.abs : XReal → XReal
  | .nan => .nan
  | .inf _ => .inf false
  | .fin _ n d => .fin false n d

/-- The signed numerator. -/
def signed (neg : Bool) (n : Nat) : Int := if neg then -n else n

/-- A sum; an exact zero from nonzero or unlike terms is −0 under RDN and +0 else. -/
def XReal.add (rm : Rm) : XReal → XReal → XReal
  | .nan, _ => .nan
  | _, .nan => .nan
  | .inf s, .inf t => if s == t then .inf s else .nan
  | .inf s, _ => .inf s
  | _, .inf t => .inf t
  | .fin s n d, .fin t m e =>
    let x : Int := if d == e then signed s n + signed t m else signed s n * e + signed t m * d
    let den := if d == e then d else d * e
    if x == 0 then
      (if n == 0 && m == 0 && s == t then .fin s 0 1 else .fin (rm == .rdn) 0 1)
    else .fin (decide (x < 0)) x.natAbs den

def XReal.mul : XReal → XReal → XReal
  | .nan, _ => .nan
  | _, .nan => .nan
  | .inf s, .inf t => .inf (s != t)
  | .inf s, .fin t n _ => if n == 0 then .nan else .inf (s != t)
  | .fin s n _, .inf t => if n == 0 then .nan else .inf (s != t)
  | .fin s n d, .fin t m e => .fin (s != t) (n * m) (d * e)

def XReal.div : XReal → XReal → XReal
  | .nan, _ => .nan
  | _, .nan => .nan
  | .inf _, .inf _ => .nan
  | .inf s, .fin t _ _ => .inf (s != t)
  | .fin s _ _, .inf t => .fin (s != t) 0 1
  | .fin s n d, .fin t m e =>
    if m == 0 then (if n == 0 then .nan else .inf (s != t)) else .fin (s != t) (n * e) (d * m)

/-- Integer square root of a number below 4^fuel, bit by bit. -/
def isqrtAux (n : Nat) : Nat → Nat → Nat
  | 0, r => r
  | k + 1, r =>
    let t := r + 2 ^ k
    isqrtAux n k (if t * t ≤ n then t else r)

def isqrt (n : Nat) : Nat := isqrtAux n (Nat.log2 n / 2 + 1) 0

/-- A value with the square root's leading bits, exact when the root is rational at this precision and
strictly between two neighbours far below any rounding step when it is not. -/
def XReal.sqrt : XReal → XReal
  | .nan => .nan
  | .inf s => if s then .nan else .inf false
  | .fin s n d =>
    if n == 0 then .fin s 0 1
    else if s then .nan
    else
      -- √(n/d) = √(n·d)/d, scaled by 2^k
      let k := 256 + Nat.log2 d
      let w := n * d * 4 ^ k
      let r := isqrt w
      if r * r == w then .fin false r (d * 2 ^ k) else .fin false (2 * r + 1) (2 * d * 2 ^ k)

/-- Comparison of two values that are no NaN. -/
def XReal.cmp : XReal → XReal → Option Ordering
  | .nan, _ => none
  | _, .nan => none
  | .inf s, .inf t => some (if s == t then .eq else if s then .lt else .gt)
  | .inf s, _ => some (if s then .lt else .gt)
  | _, .inf t => some (if t then .gt else .lt)
  | .fin s n d, .fin t m e => some (compare (signed s n * e) (signed t m * d))

/-- minimumNumber and maximumNumber, −0 below +0 (R71), on the bits of a format. -/
def Fmt.minMax (f : Fmt) (ftz max : Bool) (a b : Nat) : Nat :=
  let x := f.read ftz a
  let y := f.read ftz b
  let pick := fun (v : XReal) => f.write ftz .rne v
  match x, y with
  | .nan, .nan => f.nan
  | .nan, v => pick v
  | v, .nan => pick v
  | u, v =>
    let negU := match u with | .inf s => s | .fin s _ _ => s | .nan => false
    match XReal.cmp u v with
    | some .lt => pick (if max then v else u)
    | some .gt => pick (if max then u else v)
    | _ => pick (if negU == max then v else u)

/-- The class mask of R147. -/
def Fmt.classify (f : Fmt) (x : Nat) : Word :=
  let neg := x / f.sign % 2 == 1
  let e := x / 2 ^ f.fb % 2 ^ f.eb
  let m := x % 2 ^ f.fb
  let k : Nat :=
    if e == 2 ^ f.eb - 1 then
      (if m == 0 then (if neg then 0 else 7) else if m / 2 ^ (f.fb - 1) == 1 then 9 else 8)
    else if e == 0 then (if m == 0 then (if neg then 3 else 4) else if neg then 2 else 5)
    else if neg then 1 else 6
  BitVec.ofNat 32 (2 ^ k)

/-- A quotient rounded to an integer under a mode. -/
def roundInt (rm : Rm) (neg : Bool) (num den : Nat) : Int :=
  let m := num / den
  signed neg (if roundsUp rm neg (m % 2 == 1) (num % den) den then m + 1 else m)

/-- FRND: an integral value of the same format, keeping the sign of zero (R147). -/
def XReal.toIntegral (rm : Rm) : XReal → XReal
  | .fin s n d => .fin s (roundInt rm s n d).natAbs 1
  | x => x

/-- Clamp an integer to a range. -/
def clampInt (x lo hi : Int) : Int := if x < lo then lo else if hi < x then hi else x

/-- Floating to integer: rounded under RM, clamped, NaN to 0 (R77). -/
def XReal.toInt (rm : Rm) (lo hi : Int) : XReal → Int
  | .nan => 0
  | .inf s => if s then lo else hi
  | .fin s n d => clampInt (roundInt rm s n d) lo hi

/-- An integer as an exact value; zero is +0. -/
def XReal.ofInt (x : Int) : XReal := .fin (decide (x < 0)) x.natAbs 1

/-! KD8 (R78 to R85). -/

/-- Length of the run of bits equal to bit 6 of a payload, downward from bit `k` (R79). -/
def kd8Run (t : Bool) (p : Nat) : Nat → Nat
  | 0 => if p.testBit 0 == t then 1 else 0
  | k + 1 => if p.testBit (k + 1) == t then 1 + kd8Run t p k else 0

/-- The magnitude of a payload times 32·10^6, which is whole for every payload (R79, R80). -/
def kd8Scaled (p : Nat) : Nat :=
  if p == 0 then 0 else
  let t := p.testBit 6
  let l := kd8Run t p 6
  if l == 7 then 32 * 10 ^ 12
  else
    let n := 6 - l
    let fr := p % 2 ^ n
    -- (1 + 9·F/2^n)·10^E·32·10^6
    let mant := (2 ^ n + 9 * fr) * 2 ^ (5 - n)
    if t then mant * 10 ^ (l - 1 + 6) else mant * 10 ^ (6 - l)

/-- The denominator of scaled KD8 values. -/
def kd8Den : Nat := 32 * 10 ^ 6

/-- KD8Value: the value of a byte, NaR as NaN (R79, R82). -/
def kd8Value (b : Byte) : XReal :=
  let p := b.toNat % 128
  if p == 0 then (if b.toNat == 0 then .fin false 0 1 else .nan)
  else .fin (b.toNat ≥ 128) (kd8Scaled p) kd8Den

/-- The greatest payload whose value does not exceed num/den, searched from `k` downward. -/
def kd8Floor (num den : Nat) : Nat → Nat
  | 0 => 0
  | k + 1 => if kd8Scaled (k + 1) * den ≤ num * kd8Den then k + 1 else kd8Floor num den k

/-- KD8Encode (R81). -/
def kd8Encode (sat : Bool) : XReal → Byte
  | .nan => 0x80
  | .inf s => if sat then (if s then 0xFF else 0x7F) else 0x80
  | .fin s num den =>
    let p :=
      if den * 10 ^ 6 ≤ num then 0x7F
      else
        let lo := kd8Floor num den 126
        let below := num * kd8Den - kd8Scaled lo * den
        let above := kd8Scaled (lo + 1) * den - num * kd8Den
        if below < above then lo else if above < below then lo + 1
        else if lo % 2 == 0 then lo else lo + 1
    if p == 0 then 0x00 else if s then BitVec.ofNat 8 (0x80 + p) else BitVec.ofNat 8 p

/-- A value times a power of ten, exactly (R84, R85). -/
def XReal.scale10 (k : Int) : XReal → XReal
  | .fin s n d => if 0 ≤ k then .fin s (n * 10 ^ k.toNat) d else .fin s n (d * 10 ^ (-k).toNat)
  | x => x

/-- RQNT of one element (R85, R289): zero and NaR kept, finite values never read SAT. -/
def kd8Requant (delta : Int) (b : Byte) : Byte :=
  if b == 0x00#8 || b == 0x80#8 then b
  else
    -- beyond 13 decades every element has left the range on its side
    kd8Encode false ((kd8Value b).scale10 (clampInt delta (-20) 20))

/-! Segment sums of the matrix units and DOT4 (R87, R88). -/

/-- A value is a negative zero. -/
def XReal.isNegZero : XReal → Bool
  | .fin true 0 _ => true
  | _ => false

/-- The exact sum of a segment's products: NaN and infinities by R88, −0 only when every product is −0. -/
def segmentSum (ps : List XReal) : XReal :=
  match ps.foldl (XReal.add .rne) (.fin true 0 1) with
  | .fin _ 0 d => .fin (ps.all XReal.isNegZero && !ps.isEmpty) 0 d
  | x => x

/-- acc + t with the two roundings of R87. -/
def accumulate (acc : Word) (t : XReal) : Word :=
  let t32 := f32.roundTo .rne t
  BitVec.ofNat 32 (f32.roundTo .rne (XReal.add .rne (f32.decode acc.toNat) (f32.decode t32)))

/-- The binary32 addition of .fadd: RNE, subnormals kept (R255). -/
def fadd32 (a b : Word) : Word :=
  BitVec.ofNat 32 (f32.roundTo .rne (XReal.add .rne (f32.decode a.toNat) (f32.decode b.toNat)))

/-! Fixed functions (R148), by fixed-point integers with `prec` fraction bits. -/

def prec : Nat := 256
/-- ln 2 and π with 256 fraction bits. -/
def ln2Fix : Nat := 0xb17217f7d1cf79abc9e3b39803f2f6af40f343267298b62d8a0d175b8baafa2b
def piFix : Nat := 0x3243f6a8885a308d313198a2e03707344a4093822299f31d0082efa98ec4e6c89

/-- Σ terms of the exponential series from term `t` = x^k/k!, for x in [0, 1). -/
def expSeries (x : Nat) : Nat → Nat → Nat → Nat
  | 0, _, _ => 0
  | fuel + 1, k, t => t + expSeries x fuel (k + 1) (t * x / 2 ^ prec / (k + 1))

/-- e^x for x in [0, 1), fixed point. -/
def expFix (x : Nat) : Nat := expSeries x 70 0 (2 ^ prec)

/-- Σ z^(2k+1)/(2k+1) from power `p`, of z² = `z2`. -/
def atanhSeries (z2 : Nat) : Nat → Nat → Nat → Nat
  | 0, _, _ => 0
  | fuel + 1, k, p => p / (2 * k + 1) + atanhSeries z2 fuel (k + 1) (p * z2 / 2 ^ prec)

/-- Alternating series of sine: x − x³/3! + …, from term `t`. -/
def sinSeries (x2 : Nat) : Nat → Nat → Int → Int
  | 0, _, _ => 0
  | fuel + 1, k, t =>
    t + sinSeries x2 fuel (k + 1) (-(t * x2 / (2 ^ prec : Nat) / ((2 * k + 2) * (2 * k + 3) : Nat)))

/-- The floor of a quotient of a signed numerator. -/
def floorDiv (s : Bool) (n d : Nat) : Int := Int.fdiv (signed s n) d

/-- 2^(i + frac/2^prec · 1) as an exact quotient. -/
def pow2Fix (i : Int) (frac : Nat) : XReal :=
  let m := expFix (frac * ln2Fix / 2 ^ prec)
  if 0 ≤ i then .fin false (m * 2 ^ i.toNat) (2 ^ prec) else .fin false m (2 ^ prec * 2 ^ (-i).toNat)

/-- 2^a of a finite a: exact at integers; beyond the widest binary32 range a value past it. -/
def exp2Real (s : Bool) (n d : Nat) : XReal :=
  let i := floorDiv s n d
  if 200 < i then .fin false (2 ^ 200 + 1) 1
  else if i < -200 then .fin false 1 (2 ^ 200 + 1)
  else
    let r := signed s n - i * d
    if r == 0 then (if 0 ≤ i then .fin false (2 ^ i.toNat) 1 else .fin false 1 (2 ^ (-i).toNat))
    else pow2Fix i (r.toNat * 2 ^ prec / d)

/-- log₂ of a positive finite value. -/
def log2Real (n d : Nat) : XReal :=
  let e := ilog2 n d
  -- m = n/d/2^e in [1, 2), as num/den
  let num := if 0 ≤ e then n else n * 2 ^ (-e).toNat
  let den := if 0 ≤ e then d * 2 ^ e.toNat else d
  if num == den then .ofInt e
  else
    let z := (num - den) * 2 ^ prec / (num + den)
    let ln := 2 * atanhSeries (z * z / 2 ^ prec) 90 0 z
    let x : Int := e * (2 ^ prec : Nat) + (ln * 2 ^ prec / ln2Fix : Nat)
    .fin (decide (x < 0)) x.natAbs (2 ^ prec)

/-- sin(π·t) for a quotient t in [0, 1/2), where it stays below 1. -/
def sinHalf (n d : Nat) : Nat :=
  let x := n * piFix / d
  min (sinSeries (x * x / 2 ^ prec) 60 0 x).toNat (2 ^ prec - 1)

/-- sin(π·a) of a finite a: exact at integers and half-integers, zero with the sign of a. -/
def sinReal (s : Bool) (n d : Nat) : XReal :=
  let r := n % (2 * d)
  let flip := d ≤ r
  let u := r % d
  if u == 0 then .fin s 0 1
  else if 2 * u == d then .fin (s != flip) 1 1
  else .fin (s != flip) (sinHalf (min u (d - u)) d) (2 ^ prec)

/-- cos(π·a) of a finite a: exact at integers and half-integers, +0 at the latter. -/
def cosReal (n d : Nat) : XReal :=
  let r := n % (2 * d)
  if r == 0 then .fin false 1 1
  else if r == d then .fin true 1 1
  else if 2 * r == d || 2 * r == 3 * d then .fin false 0 1
  else
    -- distance of a from the nearest half-integer, in [0, 1/2], over 2d
    let neg := decide (d < 2 * r ∧ 2 * r < 3 * d)
    let t := if r < d then (if 2 * r < d then d - 2 * r else 2 * r - d)
             else (if 2 * r < 3 * d then 3 * d - 2 * r else 2 * r - 3 * d)
    .fin neg (sinHalf t (2 * d)) (2 ^ prec)

/-- tanh of a finite a. Near zero it lies just below a in magnitude, far from zero just below 1. -/
def tanhReal (s : Bool) (n d : Nat) : XReal :=
  if n == 0 then .fin s 0 1
  else if n * 2 ^ 40 < d then .fin s (n * (2 ^ 100 - 1)) (d * 2 ^ 100)
  else if 60 * d < n then .fin s (2 ^ 150 - 1) (2 ^ 150)
  else
    let y := 2 * n * 2 ^ prec / d
    let k := y / ln2Fix
    let e := expFix (y % ln2Fix) * 2 ^ k
    .fin s (e - 2 ^ prec) (e + 2 ^ prec)

/-- The fixed functions by opcode. -/
inductive Fixed
  | rsq | exp2 | log2 | sin | cos | tanh
  deriving DecidableEq, Repr

def Fixed.opcode : Fixed → Nat
  | .rsq => 0xF4
  | .exp2 => 0xF6
  | .log2 => 0xF7
  | .sin => 0xF8
  | .cos => 0xF9
  | .tanh => 0xFA

/-- The exact result of a fixed function, by the table of R148 at its special operands. -/
def Fixed.exact (fn : Fixed) (x : XReal) : XReal :=
  match fn, x with
  | _, .nan => .nan
  | .rsq, .inf s => if s then .nan else .fin false 0 1
  | .rsq, .fin s n d =>
    if n == 0 then .inf s else if s then .nan else XReal.sqrt (.fin false d n)
  | .exp2, .inf s => if s then .fin false 0 1 else .inf false
  | .exp2, .fin s n d => exp2Real s n d
  | .log2, .inf s => if s then .nan else .inf false
  | .log2, .fin s n d => if n == 0 then .inf true else if s then .nan else log2Real n d
  | .sin, .inf _ => .nan
  | .sin, .fin s n d => sinReal s n d
  | .cos, .inf _ => .nan
  | .cos, .fin _ n d => cosReal n d
  | .tanh, .inf s => .fin s 1 1
  | .tanh, .fin s n d => tanhReal s n d

/-- A fixed function in a format (R148): RNE of the exact result in the 16-bit formats; in binary32 the
exact result where it is representable, else the neighbour that the free value `fixedUp` names. DESIGN
CHOICE (log 71): binary64, which the rule gives to FRSQ and defines no rounding for, rounds with RNE as
well. -/
def Fixed.apply (fn : Fixed) (f : Fmt) (ftz : Bool) (a : Nat) : Nat :=
  let x := fn.exact (f.read ftz a)
  if f != f32 then f.roundTo .rne x
  else
    let lo := f.write ftz .rdn x
    let hi := f.write ftz .rup x
    if lo == hi then lo else if Config.fixedUp fn.opcode (BitVec.ofNat 32 a) then hi else lo

end Sys2Proof.Machine
end

