-- ==== Sys2Proof/Machine/State.lean ====
section
/-!
DEFINITION. The state of the machine as plain data, the reasons a step can stop, and the state right
after reset. Waves, blocks, launches and requests are kept in append-only lists and named by their
positions; a list by key that is sparse names its absent entries' value in the accessor that reads it.
-/

namespace Sys2Proof.Machine

/-! Memory. -/

/-- A byte memory: address and byte pairs, addresses strictly rising, no byte zero. -/
abbrev Mem := List Host.Cell

/-- What a byte that no entry lists reads as; DESIGN CHOICE, log entry 4. -/
def unlisted : Byte := 0

/-- The three typed buffers of a block (R165, R170). -/
inductive Buf
  | w
  | a
  | c
  deriving DecidableEq, Repr, Inhabited

/-- Where a byte lies: a block's scratchpad or typed buffer, the physical memory of the module, host
memory, or the exported window of a node (R166, R203). -/
inductive Place
  | scr (block : Nat)
  | typed (block : Nat) (buf : Buf)
  | dev
  | host
  | peer (node : Nat)
  deriving DecidableEq, Repr, Inhabited

/-- A 32-byte sector: its place and its address divided by 32 (R202). -/
structure SecKey where
  place : Place
  idx : Nat
  deriving DecidableEq, Repr, Inhabited

/-- A buffered byte with its stamp: in a WWB the order number of the store that wrote it, above it the
wave whose commit last brought it, and the owner whose contribution it is (R207, R211). -/
structure Stamped where
  val : Byte
  by' : Nat := 0
  owner : Nat := 0
  deriving DecidableEq, Repr, Inhabited

/-- The bytes a buffer holds of one sector: 32 places, each empty or a stamped byte (R205). -/
abbrev SecData := List (Option Stamped)

/-- A sector of a buffer (R205). In the WWB the owner is the wave. `va` is the virtual sector the
bytes were stored to, which range locks name; `spilledBy` holds the owners whose bytes spilled in. -/
structure Sector where
  key : SecKey
  va : Nat := 0
  fn : Nat := 0
  asid : Nat := 0
  data : SecData := []
  owners : List Nat := []
  spilledBy : List Nat := []
  /-- The group whose members may share it: the block at b, the gang at g (R205). -/
  group : Nat := 0
  /-- A provisional sector that is poisoned (R396). -/
  marked : Bool := false
  /-- The stores of idempotent regions that it holds: wave, stream and order number (R314). -/
  regions : List (Nat × Slice × Nat) := []
  deriving DecidableEq, Repr, Inhabited

/-- A store still inside its settle window (R207): its order number, issue cycle, stream, target bytes. -/
structure Pend where
  seq : Nat
  issued : Nat
  slice : Slice
  key : SecKey
  va : Nat
  bytes : List (Nat × Byte)
  region : Bool := false
  /-- The stream's fence at its issue (R226). -/
  fence : Nat := 0
  deriving DecidableEq, Repr, Inhabited

/-- A copy of a device or host sector held by a core's L1 or by a cluster's interconnect (R416): the bytes
and which of them the place has written; `launch` where it was taken from the provisional image of a
launch, whose accesses alone it then serves (R217), `marked` where it is poisoned (R396), `blocks` those whose strong
accesses have written into it. -/
structure LineCopy where
  core : Option Nat
  cluster : Option Nat
  key : SecKey
  launch : Option Nat := none
  bytes : List Byte
  written : Mask
  marked : Bool := false
  blocks : List Nat := []
  deriving DecidableEq, Repr, Inhabited

/-! Traps and parks. -/

/-- The trap classes of R331. -/
inductive TrapClass
  | illegalOp | illegalOperand | illegalMode | priv | lookahead | loopDepth | stackLimit | align
  | protection | xlate | queuePoison | rangeLocked | copyBounds | handleStale | peerNak
  | barrierClobber | barrierMismatch | growImpossible | growDeadlock | poison | timer | swTrap | bkpt
  | watch
  deriving DecidableEq, Repr, Inhabited

/-- A trap as it is raised, with what the trap record carries (R332). -/
structure Trap where
  cls : TrapClass
  cause : Nat := 0
  lane : Nat := 0
  info : Word := 0
  addr : Dword := 0
  mask : Word := 0
  /-- Address-slice PC of the load, for QUEUE_POISON. -/
  loadPc : Dword := 0
  /-- The poisoned sector, for POISON (R397, R398). -/
  site : Option SecKey := none
  /-- The ESEQ of a load's issue, for what it consumes when it returns (R398, R402). -/
  eseq : Option Word := none
  deriving DecidableEq, Repr, Inhabited

/-- Names one fragment: wave, stream and split-table entry. -/
structure FragRef where
  wave : Nat
  slice : Slice
  entry : Nat
  deriving DecidableEq, Repr, Inhabited

/-- Why a fragment issues nothing. An instruction that is parked is not executed: its PC stands at it. -/
inductive Park
  /-- At JOIN, for the fragments of a split identifier (R39). -/
  | join (id : Nat)
  /-- On a full or unfilled queue (R46, R47). -/
  | queue
  /-- At MEET (R48). -/
  | meet
  /-- On the cell at an offset of its block's scratchpad, for a parity; `woken` when the phase flipped
  or the cell was poisoned (R180), `handle` then names the handle of R193. -/
  | cell (off : Nat) (parity : Bool) (woken : Bool) (handle : Option Nat)
  /-- Between polls of WAITV (R312). -/
  | waitv
  /-- In RECV on a queue, with its turn among the RECVs that have reached the queue (R307). -/
  | recv (q turn : Nat)
  /-- On timer n (R306). -/
  | timer (n : Nat) (woken : Bool)
  | copies
  | cqget
  /-- In GROW n (R55). -/
  | grow (n : Nat)
  /-- On a translation, by the fault request's number (R200). -/
  | xlate (req : Nat)
  /-- Refused by a full fault buffer (R200). -/
  | refused
  /-- On a pending load of a register, a pending entry, a lock, a copy queue. -/
  | stall
  /-- On a member of its gang that has not started, which stalls its wave (R60). -/
  | member
  /-- On a WWB without room, which stalls its stream (R207). -/
  | full
  /-- On an answer from a peer (R260). -/
  | peer
  deriving DecidableEq, Repr, Inhabited

/-! Fragments, streams, waves. -/

/-- An active zero-overhead loop: passes left, first and last body address (R113). -/
structure Loop where
  left : Word
  first : Dword
  last : Dword
  deriving DecidableEq, Repr, Inhabited

/-- What SPLIT copies and saves: the mode register with its PMODE count and restore copy, CC, and the
active loops, innermost first (R38, R106, R133). -/
structure Ctl where
  mode : ModeBits := 0
  count : Nat := 0
  restore : ModeBits := 0
  cc : Bool := false
  loops : List Loop := []
  deriving DecidableEq, Repr, Inhabited

/-- A record of the reconvergence stack (R38, R39, R157). -/
inductive StackRec
  | trivial (join : Dword)
  | table (join : Dword) (id : Nat) (fall : Bool)
  | masked (join : Dword) (elseDone : Bool) (fall whole : Mask) (resume : Dword) (saved : Ctl)
  | call (ret : Dword)
  deriving DecidableEq, Repr, Inhabited

/-- A register an instruction names. -/
inductive RegId
  | v (n : Nat)
  | s (n : Nat)
  | p (n : Nat)
  deriving DecidableEq, Repr, Inhabited

/-- An open lookahead window: the PC of its instruction, the instructions left, the protected set
(R110). -/
structure Window where
  pc : Dword
  left : Nat
  regs : List RegId
  deriving DecidableEq, Repr, Inhabited

/-- The registers of a stream: vector, uniform, predicates (R42). -/
structure Regs where
  v : List Vec := []
  s : List Word := []
  p : List Mask := []
  deriving DecidableEq, Repr, Inhabited

/-- An instruction held for its settle window, with the registers, FP and record bytes it read at
issue (R207, R303); `reqs` are its peer requests, `lanesDone` the lanes already performed. -/
structure Hold where
  issued : Nat
  seq : Nat
  settled : Bool := false
  regs : Regs
  data : List Byte := []
  rows : List Dword := []
  handles : List Nat := []
  /-- Tile handles it is a user of (R190). -/
  users : List Nat := []
  reqs : List Nat := []
  lanesDone : Mask := 0
  arrived : Bool := false
  /-- The surroundings have it complete with its bytes in an egress queue (R220, R240). -/
  post : Bool := false
  /-- The word that issued, and the wave's ESEQ then. -/
  word : Word := 0
  eseq : Word := 0
  /-- The stream's fence at its issue (R226). -/
  fence : Nat := 0
  deriving DecidableEq, Repr, Inhabited

/-- A fragment (R36). -/
structure Frag where
  pc : Dword
  mask : Mask
  ctl : Ctl := {}
  stack : List StackRec := []
  windows : List Window := []
  park : Option Park := none
  hold : Option Hold := none
  /-- The cycle at which the fragment became ready (R330). -/
  ready : Nat := 0
  /-- The instruction after an access to a watched sector raises WATCH (R403): unit and address. -/
  watch : Option (Nat × Dword) := none
  deriving DecidableEq, Repr, Inhabited

/-- The hidden set of a handler (R332), with the fragment that runs it. -/
structure Hidden where
  entry : Nat
  regs : List Word
  pc : Dword
  ctl : Ctl
  stack : List StackRec
  fp : Nat
  deriving DecidableEq, Repr, Inhabited

/-- The open idempotent region of a stream and what its restart restores (R335). -/
structure Region where
  entryPc : Dword
  entry : Nat
  mask : Mask
  ctl : Ctl
  /-- Entry numbers of the queue tails at IDEM, LQ0 to LQ3 then SQ0, SQ1 then CQ. -/
  tails : List Nat
  broken : Bool := false
  /-- A sector that held a store of the region has spilled (R314). -/
  spilled : Bool := false
  /-- The wave's order number at IDEM: what has a smaller one was issued before the region. -/
  opened : Nat := 0
  /-- The wave's count of discarded entries at IDEM (R159). -/
  sqdrop : Nat := 0
  /-- WWB sectors as they stood before the region's first store to each. -/
  undo : List (SecKey × Option Sector) := []
  /-- A consumption has already restarted this region, and its IDEM is about to open it again. -/
  restarted : Bool := false
  reenter : Bool := false
  deriving DecidableEq, Repr, Inhabited

/-- A stream of a wave (R42). -/
structure Stream where
  /-- The split table: 8 entries (R36). -/
  frags : List (Option Frag)
  regs : Regs
  fp : Nat := 0
  /-- Live lanes that have exited in this stream (R158). -/
  exited : Mask := 0
  ended : Bool := false
  handler : Option Hidden := none
  region : Option Region := none
  /-- Completed MEET pairs and whether the stream is at one (R48). -/
  meets : Nat := 0
  /-- Instructions issued since the last YIELD, for R329; none before the first. -/
  sinceYield : Option Nat := none
  /-- TIMER traps due at the next boundary: timer and VTIME low word at firing (R305, R347). -/
  timers : List (Nat × Word) := []
  /-- The next split identifier. -/
  nextSplit : Nat := 0
  /-- Order number before which the wave's operations come before what this stream issues: of its last MEET, or
  of a queue entry that it has dequeued (R226). -/
  fence : Nat := 0
  deriving DecidableEq, Repr, Inhabited

/-- A queue entry: its number and what it holds (R46, R50, R51). -/
inductive QState
  | unfilled
  | filled (data : Vec)
  | poisoned (cls : TrapClass) (cause lane : Nat) (addr pc : Dword)
  /-- Uncorrectable data, of a sector where one is known. -/
  | marked (k : Option SecKey := none)
  deriving DecidableEq, Repr, Inhabited

structure QEntry where
  id : Nat
  st : QState
  /-- The wave's order number when it was reserved (R226). -/
  seq : Nat := 0
  deriving DecidableEq, Repr, Inhabited

/-- A queue of a wave, oldest entry first; the first `taken` entries are dequeued and held by an open
region (R46, R335). -/
structure Fifo where
  entries : List QEntry := []
  taken : Nat := 0
  next : Nat := 0
  deriving DecidableEq, Repr, Inhabited

/-- Where a load's bytes of one lane come from. -/
structure LaneAddr where
  lane : Nat
  place : Place
  addr : Nat
  /-- Virtual address, for locks and watches. -/
  va : Nat
  deriving DecidableEq, Repr, Inhabited

/-- Where a load's words go. -/
inductive LoadDest
  | vec (n : Nat)
  | uni (n : Nat)
  /-- Entries of a queue: LQ0 to LQ3 are 0 to 3, SQ0 and SQ1 are 4 and 5. -/
  | queue (q : Nat) (ids : List Nat)
  /-- A shape-table entry (R145). -/
  | shape (n : Nat)
  deriving DecidableEq, Repr, Inhabited

/-- A load that has issued and not yet returned (R245). -/
structure Load where
  id : Nat
  slice : Slice
  pc : Dword
  issued : Nat
  dest : LoadDest
  size : Nat
  signed : Bool
  lanes : List LaneAddr
  /-- Lanes that take part, zeros included (R34, R46). -/
  part : Mask
  entry : Nat
  /-- It returns after every load with a smaller number than this (R226). -/
  fence : Nat := 0
  /-- The wave's ESEQ at its issue (R402). -/
  eseq : Word := 0
  deriving DecidableEq, Repr, Inhabited

/-- One of a wave's eight copy tokens (R274). -/
structure Token where
  count : Nat := 0
  /-- The level at which a wait on it acquires (R229). -/
  acq : Nat := 0
  err : Bool := false
  code : Nat := 0
  cause : Nat := 0
  index : Word := 0
  deriving DecidableEq, Repr, Inhabited

/-- The operand latch of R286. -/
structure Latch where
  af : Nat
  rows : List (List Byte)
  deriving DecidableEq, Repr, Inhabited

/-- A line of a stack cache (R173): the index of a word of the lanes' private bytes and its 128 bytes, the
word of lane l at 4 × l; `dirty` when the backing is older, and which of its sectors are poisoned (R396). -/
structure StackLine where
  word : Nat
  bytes : List Byte
  dirty : Bool := false
  marked : List Nat := []
  deriving DecidableEq, Repr, Inhabited

/-- A private store inside its settle window (R207, R248): byte b of lane l at l × 2^18 + b. -/
structure PrivPend where
  seq : Nat
  issued : Nat
  slice : Slice
  bytes : List (Nat × Byte)
  deriving DecidableEq, Repr, Inhabited

/-- A wave (R29, R42). -/
structure Wave where
  block : Nat
  idx : Nat
  core : Nat := 0
  slot : Nat := 0
  /-- Start order on its core (R55). -/
  age : Nat := 0
  live : Mask
  retired : Bool := false
  /-- The cycle at which both streams had ended; the default commit settles from it (R215). -/
  exitedAt : Option Nat := none
  a : Option Stream
  c : Stream
  /-- Current, least and greatest compute vector count (R54). -/
  vcount : Nat
  vmin : Nat
  vmax : Nat
  slip : Nat := 16
  slim : Nat := 512
  lq : List Fifo
  sq : List Fifo
  cq : Fifo := {}
  /-- The WWB: settled sectors, oldest first, and the stores not yet settled (R206, R207). -/
  wwb : List Sector := []
  pend : List Pend := []
  /-- The stack cache, the line last used first (R173). -/
  cache : List StackLine := []
  /-- Private bytes of a wave that has no backing slot, which only a shadow's has not (R395). -/
  priv : Mem := []
  privPend : List PrivPend := []
  loads : List Load := []
  /-- Order number of the wave's next store, load or held operation. -/
  seq : Nat := 0
  conflict : Bool := false
  spilled : Bool := false
  /-- The highest level the wave's spills reached (R213). -/
  spillLevel : Nat := 0
  latch : Option Latch := none
  eseq : Word := 0
  tokens : List Token
  /-- Backing slot of the launch's private pool, held until the wave retires (R324). -/
  backing : Nat := 0
  holdsSlot : Bool := true
  /-- Entries that the wave's producer has discarded because their consumer had ended (R159). -/
  sqdrop : Nat := 0
  deriving DecidableEq, Repr, Inhabited

/-- Bytes of a strong store that has performed in its fragment's order and that stand in an egress queue of its
core, not yet at the place of their scope (R220, R240). -/
structure Egress where
  wave : Nat
  core : Nat
  launch : Nat
  sc : Nat
  writes : List (Nat × List Byte)
  deriving DecidableEq, Repr, Inhabited

/-! Blocks, launches, cores. -/

/-- A barrier cell (R174). PKW counts the waits parked on it (R180). -/
structure Cell where
  off : Nat
  exp : Word := 0
  cnt : Word := 0
  ph : Bool := false
  arrival : Bool := false
  unit : Nat := 0
  ann : Bool := false
  full : Bool := false
  poi : Bool := false
  /-- The handle whose invalidation poisoned the cell (R193). -/
  poiHandle : Nat := 0
  /-- A BREMA arrival took part in the current phase (R263). -/
  remote : Bool := false
  /-- The level at which a wait that completes acquires: 1 at block, 2 after a BREMA, 4 or 5 after
  units of a copy to device or to host and peer space (R229, R263). -/
  acq : Nat := 1
  deriving DecidableEq, Repr, Inhabited

/-- Where a block stands. -/
inductive BlockPhase
  | waiting
  | resident
  /-- Saved off the module (R337). -/
  | saved
  | retired
  /-- Stopped with its launch under R339. -/
  | ended
  deriving DecidableEq, Repr, Inhabited

/-- A handle entry that a saved block keeps (R337). -/
structure SavedHandle where
  idx : Nat
  gen : Nat
  buf : Buf
  off : Nat
  len : Nat
  deriving DecidableEq, Repr, Inhabited

/-- A block (R29, R58). -/
structure Block where
  launch : Nat
  index : Nat
  /-- Gang number, member and size; size 1 outside a gang (R60). -/
  gang : Nat := 0
  member : Nat := 0
  gangSize : Nat := 1
  /-- The SPAWN values for s12 to s15 (R309); none for the seed. -/
  spawn : Option (Word × Word × Dword) := none
  phase : BlockPhase := .waiting
  core : Nat := 0
  waves : List Nat := []
  scrSize : Nat := 0
  wbufSize : Nat := 0
  abufSize : Nat := 0
  cbufSize : Nat := 0
  scr : Mem := []
  wbuf : Mem := []
  abuf : Mem := []
  cbuf : Mem := []
  cells : List Cell := []
  /-- Order in which the block came to wait, and whether it was pre-empted (R63). -/
  preempted : Bool := false
  /-- The block a spin pre-emption made room for, until that block is placed (R329). -/
  behind : Option Nat := none
  /-- Pre-empted by a spin pre-emption and not yet back (R63, R329). -/
  yielded : Bool := false
  waitSince : Nat := 0
  /-- It issues nothing more and is saved once it has settled (R329, R337). -/
  stopping : Bool := false
  /-- A wave of it has done what R336 lists. -/
  external : Bool := false
  /-- BWB and GWB sectors, the handle entries and lines kept while saved (R337). -/
  savedBwb : List Sector := []
  savedGwb : List Sector := []
  savedHandles : List SavedHandle := []
  /-- Address in its queue's save area at which its record stands while it is saved (R338). -/
  recordAt : Option Nat := none
  /-- The screen this block is the primary or the shadow of (R395). -/
  screen : Option Nat := none
  shadow : Bool := false
  /-- The signature of what it committed at l, d or s (R395). -/
  signature : Dword := 0
  deriving DecidableEq, Repr, Inhabited

/-- The launch packet as accepted (R324), every field at its effective value. -/
structure Packet where
  apc : Dword := 0
  cpc : Dword := 0
  lanes : Nat := 32
  vmin : Nat := 32
  vmax : Nat := 128
  scr : Nat := 0
  wbuf : Nat := 0
  abuf : Nat := 0
  cbuf : Nat := 0
  idem : Bool := false
  abort : Bool := false
  gpriv : Bool := false
  gang : Nat := 1
  prio : Nat := 0
  vtp : Nat := 0
  place : Nat := 0
  args : List Word := []
  succ : List Dword := [0, 0, 0, 0]
  psz : Nat := 512
  pwaves : Nat := 32
  pbase : Dword := 0
  deriving DecidableEq, Repr, Inhabited

/-- An error record of R398. -/
structure ErrRec where
  kind : Nat
  unit : Nat := 0
  loc : Nat := 0
  bank : Nat := 0
  col : Nat := 0
  row : Nat := 0
  ctx : Nat := 0
  asid : Nat := 0
  vtime : Nat := 0
  rtime : Nat := 0
  pc : Dword := 0
  eseq : Word := 0
  info : Word := 0
  addr : Dword := 0
  count : Nat := 1
  queue : Nat := 0
  deriving DecidableEq, Repr, Inhabited

/-- How a launch stands. -/
inductive LaunchPhase
  | running
  /-- It ends with an error (R339): nothing of it issues or retires any more. -/
  | ending
  | complete
  | error
  deriving DecidableEq, Repr, Inhabited

/-- The error end of a launch under way (R339): a trap that ends it acts beyond its core once it has settled, as the
core's rollback takes it back until then (R207, R391, R393), and then the launch's copies drain. -/
structure LaunchEnd where
  /-- The core, the cycle and the error record of the trap that ends the launch, and whether its context ends with
  it, until the trap has settled. -/
  trap : Option (Nat × Nat × ErrRec × Bool) := none
  /-- Its blocks have been stopped; its copies drain. -/
  stopped : Bool := false
  /-- A completion record is to be written; a teardown writes none (R381). -/
  report : Bool := true
  deriving DecidableEq, Repr, Inhabited

/-- A launch (R29, R59). -/
structure Launch where
  fn : Nat
  asid : Nat
  queue : Nat
  packet : Packet
  /-- Privilege of its code: 0 user, 1 guest, 2 host (R334). -/
  priv : Nat
  counter : Nat := 1
  nextBlock : Nat := 1
  nextGang : Nat := 1
  phase : LaunchPhase := .running
  ending : LaunchEnd := {}
  /-- Provisional sectors of an abortable launch (R203, R216). -/
  prov : List Sector := []
  sqdrop : Nat := 0
  naks : Nat := 0
  /-- Ring index of the packet that began its chain, and the chain's sums (R326). -/
  ringIdx : Nat := 0
  chained : Bool := false
  err : Dword := 0
  /-- Backing slots in use (R324). -/
  backing : List Nat := []
  /-- Save area in force for it (R372). -/
  save : Dword := 0
  svsz : Nat := 0
  deriving DecidableEq, Repr, Inhabited

/-- An entry of a core's tile-handle table (R188). -/
structure HandleEntry where
  idx : Nat
  gen : Nat := 1
  alloc : Bool := false
  buf : Buf := .w
  off : Nat := 0
  len : Nat := 0
  launch : Nat := 0
  block : Nat := 0
  users : Nat := 0
  deferred : Bool := false
  /-- A THFREE waits for the users, which a forced invalidation does not (R191, R193, R294). -/
  pend : Bool := false
  deriving DecidableEq, Repr, Inhabited

/-- A span of bytes that a copy locks (R194): a place by space, with the virtual bounds. -/
structure Span where
  /-- 0 scratchpad, 1 WBUF, 2 ABUF, 3 CBUF, 4 device, 5 host, 6 peer. -/
  space : Nat
  /-- The block for core-local spaces, the ASID for device and host, the node for peers. -/
  owner : Nat
  lo : Nat
  hi : Nat
  deriving DecidableEq, Repr, Inhabited

/-- A side of a copy: its space, selector and origin, handle and strides (R270). -/
structure CopySide where
  space : Nat
  buf : Buf
  origin : Int
  node : Nat := 0
  strides : List Int
  handle : Option Nat := none
  limit : Option (Nat × Nat) := none
  deriving DecidableEq, Repr, Inhabited

/-- A copy in flight: an entry of the core's copy queue with its clamp entry (R194, R273). -/
structure Copy where
  idx : Nat
  wave : Nat
  token : Nat
  src : CopySide
  dst : CopySide
  counts : List Nat
  esz : Nat
  cell : Option Nat
  srcSpan : Option Span
  dstSpan : Option Span
  eseq : Word
  slice : Slice
  pc : Dword
  issued : Nat
  /-- Elements already walked, and a translation it waits on. -/
  done : Nat := 0
  park : Option Nat := none
  /-- A forced invalidation of a handle it uses (R193). -/
  stale : Option Nat := none
  /-- The peer request its current element waits on, and the bytes already read for the element. -/
  req : Option Nat := none
  got : Option (List Byte) := none
  deriving DecidableEq, Repr, Inhabited

/-- A fill lock of a core (R182). -/
structure FillLock where
  engine : Nat
  context : Nat
  span : Span
  deriving DecidableEq, Repr, Inhabited

/-- A replay queue entry (R394): an instruction, the operands and the result of one lane, and its issue site. -/
structure Replay where
  quadrant : Nat
  issued : Nat
  instr : Instr
  lane : Nat
  operands : List Dword
  /-- The words of the registers that it has written. -/
  result : List Word
  pc : Dword
  eseq : Word
  wave : Nat
  slice : Slice
  deriving DecidableEq, Repr

/-- A cached translation (R199). -/
structure TlbEntry where
  fn : Nat
  asid : Nat
  base : Nat
  size : Nat
  leaf : Dword
  deriving DecidableEq, Repr, Inhabited

/-- What reaches a wave from outside its own instructions, for rollback (R391). -/
inductive Input
  /-- A timer has fired for a stream. -/
  | timer (sl : Slice) (n : Nat) (low : Word)
  /-- A timer has fired, and the fragments that wait for it wake (R306). -/
  | fire (n : Nat)
  /-- A copy has completed, with its error if it has one: code, cause, index. -/
  | token (t : Nat) (err : Option (Nat × Nat × Nat))
  /-- The waves parked on a cell have been woken. -/
  | wake (off : Nat) (handle : Option Nat)
  deriving DecidableEq, Repr, Inhabited

/-- What a wave of a core looked like before an issue of its, for rollback (R391): the cycle, and the
number of inputs that the core had seen. -/
structure Snapshot where
  cycle : Nat
  mark : Nat
  wave : Nat
  state : Wave
  /-- The stream whose idempotent region the step restarted (R335): its stores must come back. -/
  restarted : Option Slice := none
  deriving DecidableEq, Repr, Inhabited

/-- An effect beyond the core of a held instruction that a later rollback must keep: its fragment,
issue and the wave after it (R391). -/
structure Performed where
  ref : FragRef
  issued : Nat
  done : Nat
  mark : Nat
  before : Wave
  after : Wave
  deriving DecidableEq, Repr, Inhabited

/-- A core's own state; a core with no entry in the list is idle. -/
structure Core where
  id : Nat
  bwb : List Sector := []
  handles : List HandleEntry := []
  copies : List Copy := []
  locks : List FillLock := []
  tlb : List TlbEntry := []
  replay : List Replay := []
  history : List Snapshot := []
  performed : List Performed := []
  /-- Inputs to the core's waves by number, and the next number (R391). -/
  inputs : List (Nat × Nat × Input) := []
  nextInput : Nat := 0
  /-- Cycles of the last rollbacks (R393). -/
  rollbacks : List Nat := []
  nextAge : Nat := 0
  /-- Registers that SHRINK returned and the dispatcher does not count yet: amount and cycle (R54). -/
  shrunk : List (Nat × Nat) := []
  deriving DecidableEq, Repr, Inhabited

/-- A cluster's own state. -/
structure Cluster where
  id : Nat
  gwb : List Sector := []
  tlb : List TlbEntry := []
  deriving DecidableEq, Repr, Inhabited

/-- Who waits for a translation (R200). -/
inductive Requester
  | frag (r : FragRef)
  | copy (core idx : Nat)
  | engine (e k : Nat)
  | packet (queue : Nat)
  /-- The completion record of a queue that is next to be written (R326). -/
  | report (queue : Nat)
  /-- An access by a node to a function's window; `own` is the request of this module that carries it, when
  the node is one of its functions. -/
  | peer (fn : Nat) (node : BitVec 12) (off : Nat) (ask : PeerAsk) (own : Option Nat)
  deriving DecidableEq, Repr

/-- A request parked in a die's fault buffer (R200). -/
structure FaultReq where
  id : Nat
  die : Nat
  fn : Nat
  asid : Nat
  va : Nat
  write : Bool
  who : Requester
  deriving DecidableEq, Repr

/-! Engines. -/

/-- A loop of a stream program (R298). -/
structure XLoop where
  k : Nat
  i : Nat
  count : Nat
  first : Nat
  last : Nat
  deriving DecidableEq, Repr, Inhabited

/-- A slot of a stream program's window (R297). -/
structure Slot where
  idx : Nat
  kind : Nat
  block : Nat
  off : Nat
  len : Nat
  cell : Nat
  deriving DecidableEq, Repr, Inhabited

/-- What a stream context is doing (R279); `waiting` is between the polls of an XWAIT. -/
inductive XPhase
  | running
  | waiting
  | parked
  | faulted (code : Nat)
  deriving DecidableEq, Repr, Inhabited

/-- A bound stream context (R295) with the SSTART that bound it. -/
structure XCtx where
  engine : Nat
  k : Nat
  launch : Nat
  pc : Nat
  seq : Word
  sb : Nat := 0
  cb : Nat := 0
  loops : List XLoop := []
  ss : List Dword := [0, 0, 0, 0, 0, 0]
  ds : List Word := [0, 0, 0, 0, 0, 0]
  slots : List Slot := []
  phase : XPhase := .running
  /-- The command in progress holds its fill lock (R182). -/
  locked : Bool := false
  /-- Bytes that the command in progress has written, and how many destination sectors it may write before
  it pauses, where the surroundings have it pause (R193). -/
  written : Nat := 0
  quota : Option Nat := none
  /-- The core and handle whose entry counts the fill in progress as a user (R190). -/
  user : Option (Nat × Nat) := none
  /-- The handle whose invalidation stops the fill in progress (R193). -/
  stale : Option Nat := none
  /-- Stopped with its launch's blocks (R184). -/
  saved : Bool := false
  xlate : Option Nat := none
  site : FragRef
  sitePc : Dword
  deriving DecidableEq, Repr, Inhabited

/-- The command in progress has taken its lock, and goes on or has written something: a stop waits until it completes
(R184, R278). -/
def XCtx.committed (x : XCtx) : Bool := x.locked && (x.phase == .running || 0 < x.written)

/-! Contexts, functions, queues. -/

/-- A virtual timer (R305). -/
structure Timer where
  deadline : Dword := 0
  armed : Bool := false
  fired : Bool := false
  te : Bool := false
  owner : Option (Nat × Slice) := none
  deriving DecidableEq, Repr, Inhabited

/-- A shape-table entry (R127, R145). -/
structure Shape where
  e : List Word := []
  m : List Word := []
  sh : List Byte := []
  ndim : Nat := 0
  deriving DecidableEq, Repr, Inhabited

/-- A message in an arrival queue (R307, R349). -/
structure Msg where
  stamp : Nat
  src : BitVec 16
  tag : Word
  payload : List Byte
  deriving DecidableEq, Repr, Inhabited

/-- A patience contract (R353, R355), times in the units of Config. -/
structure Contract where
  src : BitVec 16
  tag : Word
  da : Bool
  arrived : Nat
  due : Int
  /-- The context of this module that sent it: function and ASID (R358). -/
  sender : Option (Nat × Nat) := none
  /-- Time for which the context has been stopped since arrival, and the ticks of it already granted
  (R355). -/
  stopped : Nat := 0
  granted : Nat := 0
  /-- An alarm has been posted since E last rose from 0 (R356). -/
  alarmed : Bool := false
  deriving DecidableEq, Repr, Inhabited

/-- The trace unit's registers and place in its ring, and the running cycles by which it samples (R403). -/
structure Trace where
  ctl : Word := 0
  baseLo : Word := 0
  baseHi : Word := 0
  watch0Lo : Word := 0
  watch0Hi : Word := 0
  watch1Lo : Word := 0
  watch1Hi : Word := 0
  count : Word := 0
  ran : Nat := 0
  deriving DecidableEq, Repr, Inhabited

/-- The lane-cycle record of a context (R404): registers, ranges in force and bins. -/
structure LaneCycles where
  en : Bool := false
  baseLo : Word := 0
  baseHi : Word := 0
  ranges : List (Dword × Dword) := []
  bins : List (List Nat) := []
  deriving DecidableEq, Repr, Inhabited

/-- A context: one hardware ASID of one function (R373). -/
structure Context where
  fn : Nat
  asid : Nat
  ended : Bool := false
  /-- VTIME and the stop instant, in the units of Config (R344, R345). -/
  vtime : Nat := 0
  running : Bool := true
  tstop : Int := 0
  /-- A debugger, or an export, stops the context until its own end (R345, R359). -/
  debugStop : Bool := false
  exporting : Bool := false
  /-- One released step is in progress, and the fragment that may still issue for it (R346). -/
  stepping : Bool := false
  released : Option FragRef := none
  migrated : Bool := false
  /-- A packet has been accepted since the context was created (R379). -/
  accepted : Bool := false
  /-- It ended with its function's teardown: a packet or CRST creates it anew (R373, R381). -/
  torn : Bool := false
  /-- When it was exported (R359). -/
  exported : Nat := 0
  /-- A CRST creates it anew once its launches have ended (R373). -/
  reborn : Bool := false
  timers : List Timer
  shapes : List Shape
  tvecLo : Word := 0
  tvecHi : Word := 0
  /-- The low word last written and not yet in effect (R332). -/
  tvecPend : Word := 0
  counters : List Nat
  cevt : List Word
  claims : Word := 0
  aq : List (List Msg)
  /-- The stamp of the message that last arrived in each queue (R349). -/
  lastStamp : List (Option Nat)
  contracts : List Contract := []
  defers : Nat := 0
  trace : Trace := {}
  lanes : LaneCycles := {}
  deriving DecidableEq, Repr, Inhabited

/-- A teardown in progress (R381): when it began and the orphans absorbed. -/
structure Teardown where
  since : Nat
  orphans : Nat := 0
  deriving DecidableEq, Repr, Inhabited

/-- A function: VF registers of R365 and function page of R370. -/
structure Function where
  fn : Nat
  cfg : Word := 0
  clusLo : Word := 0
  clusHi : Word := 0
  memLo : Word := 0
  memHi : Word := 0
  vfq : Word := 0
  slice : Word := 0
  asids : Word := 0
  winb : Dword := 0
  wins : Word := 0
  wasx : Word := 0
  hmrb : Dword := 0
  hmrn : Word := 0
  hmrh : Word := 0
  hmrt : Word := 0
  msgbuf : Mem := []
  msgst : Word := 0
  tear : Option Teardown := none
  dumpKey : Option (BitVec 256) := none
  deriving DecidableEq, Repr, Inhabited

/-- A software queue (R322, R372), module-numbered. -/
structure Queue where
  id : Nat
  fn : Nat
  /-- The tail index its last honoured WAKE gave. -/
  tail : Nat := 0
  slot : Option Nat := none
  /-- Taken when mapped: RING, CRING, LSZ, hardware ASID. -/
  ring : Dword := 0
  cring : Dword := 0
  lsz : Nat := 0
  asid : Nat := 0
  mappedRound : Nat := 0
  waited : Nat := 0
  mapOrder : Nat := 0
  preempted : Bool := false
  draining : Bool := false
  /-- Successors released and not yet accepted: address, ring index, chain's first error, sums. -/
  chain : List (Dword × Nat) := []
  chainSums : List (Nat × Nat × Nat × Dword × Nat) := []
  xlate : Option Nat := none
  /-- Completion records not yet written, oldest first: address, bytes, the launch whose successors then go
  free (R28, R326); the fault request that the first waits for. -/
  reports : List (Nat × List Byte × Option Nat) := []
  reportWait : Option Nat := none
  errCount : Nat := 0
  deriving DecidableEq, Repr, Inhabited

/-- A peer request of this module in flight (R377, R378). -/
inductive PeerState
  | pending
  | answered (a : PeerAnswer)
  | orphan
  deriving DecidableEq, Repr

structure PeerReq where
  id : Nat
  fn : Nat
  node : Nat
  off : Nat
  ask : PeerAsk
  since : Nat
  st : PeerState := .pending
  wave : Nat := 0
  /-- It carries a message, which the target accepts (data) or refuses (R308). -/
  msg : Bool := false
  /-- The refusal of a spill or default commit is counted in the launch's record (R260). -/
  default : Bool := false
  deriving DecidableEq, Repr

/-- A redundant screen (R395). -/
structure Screen where
  id : Nat
  primary : Nat
  shadow : Option Nat := none
  since : Nat := 0
  done : Bool := false
  deriving DecidableEq, Repr, Inhabited

/-- A migration record (R359): the context with what R337 saves of its queues, launches, blocks, waves and stream
contexts, numbered within the record; L, and the export's real time on the exporter's clock. GAP is given with the
import. -/
structure MigrationRecord where
  fn : Nat
  asid : Nat
  context : Context
  queues : List Queue
  launches : List Launch
  blocks : List Block
  waves : List Wave
  engines : List XCtx
  /-- The poison marks of its blocks' scratchpads and typed buffers (R396). -/
  marks : List SecKey := []
  lapse : Int
  at' : Nat
  deriving DecidableEq, Repr

/-! The module. -/

/-- A Zarorniz port (R380). -/
structure Port where
  /-- Slots sent and received (R380): CTR of the next slot of each direction, beside its key's epoch. -/
  sendSlots : Nat := 0
  recvSlots : Nat := 0
  sendEpoch : Nat := 0
  recvEpoch : Nat := 0
  fails : Nat := 0
  retrains : Nat := 0
  deriving DecidableEq, Repr, Inhabited

/-- The checks of a firmware image in flash (R407): what the boot ROM finds when it verifies it. -/
structure Image where
  bytes : List Byte := []
  /-- The SHA-384 hashes of its two public keys. -/
  keys : List (BitVec 384) := [0, 0]
  signatures : Bool := true
  sv : Nat := 0
  model : Bool := true
  readable : Bool := true
  deriving DecidableEq, Repr, Inhabited

/-- Where the module stands in boot (R406, R407, R414). -/
inductive Boot
  | reset
  | booted
  | recovery (reason : Nat)
  | tripped
  /-- Stage 1 has failed, and no later stage starts (R406). -/
  | halted
  deriving DecidableEq, Repr, Inhabited

/-- Boot, measurement, recovery and the mailboxes (R406 to R412). -/
structure Trust where
  boot : Boot := .reset
  mrs : List (BitVec 384) := [0, 0, 0, 0, 0, 0, 0, 0]
  svmin : Nat := 0
  svFuse : Nat := 0
  /-- The key-hash fuses, whether the fuses pass their check, and the key hashes that stage 1 has loaded (R406, R407). -/
  keyFuses : List (BitVec 384) := [0, 0]
  fusesOk : Bool := true
  keyHashes : List (BitVec 384) := [0, 0]
  image : Image := {}
  bootCount : Nat := 0
  rbusy : Bool := false
  rresult : Nat := 0
  raddr : Dword := 0
  rlen : Word := 0
  /-- Address and length that the command in progress has taken (R408). -/
  rsource : Dword := 0
  rcount : Word := 0
  rreset : Bool := false
  /-- Functions with an open SPDM session, and those whose KEY_EXCHANGE is not finished. -/
  sessions : List Nat := []
  handshakes : List Nat := []
  negotiated : List Nat := []
  /-- The last response of each function's mailbox. -/
  responses : List (Nat × List Byte) := []
  /-- Functions whose next vendor-defined request the policy core takes a while over, and the requests that it has not
  completed: function, CMD and payload (R411). -/
  slow : List Nat := []
  unfinished : List (Nat × Nat × List Byte) := []
  deriving DecidableEq, Repr, Inhabited

/-- A counted bank and row of the bank map (R400, R401): the total, the count within a real hour, the hour,
the last real tick, and whether the hour's summary is written. -/
structure BankCount where
  unit : Nat
  place : Nat
  device : Nat := 0
  bank : Nat
  row : Nat
  col : Nat := 0
  total : Nat := 0
  hour : Nat := 0
  count : Nat := 0
  lastTick : Nat := 0
  noted : Bool := false
  deriving DecidableEq, Repr, Inhabited

/-- Symbols that forward error correction has corrected on a lane (R400, R401): Zarorniz lanes 0 to 143,
FeleloLink lanes 144 to 159. -/
structure LaneCount where
  lane : Nat
  total : Nat := 0
  hour : Nat := 0
  count : Nat := 0
  deriving DecidableEq, Repr, Inhabited

/-- Where an uncorrectable error stands, as error records name it (R398). -/
structure ErrSite where
  unit : Nat
  loc : Nat := 0
  bank : Nat := 0
  col : Nat := 0
  row : Nat := 0
  deriving DecidableEq, Repr, Inhabited

/-- The lifetime log and the maintenance state (R399 to R401, R405). `log` holds every record written, oldest first;
those that stand in the flash's ring are its last (R400). -/
structure Maint where
  log : List ErrRec := []
  strikes : List (Nat × Nat × Nat) := []
  banks : List BankCount := []
  fec : List LaneCount := []
  /-- The bank, column and row of the uncorrectable error that marked a sector (R396, R398). -/
  sites : List (SecKey × ErrSite) := []
  excluded : List Nat := []
  scrctl : Word := 0x21000
  scrseed : Word := 0
  lfsr : Word := 0
  screens : List Screen := []
  stestCore : Nat := 0
  stestBusy : Bool := false
  /-- The core under test, which STEST.CORE no longer names once it is written again (R399). -/
  stestRun : Nat := 0
  stestRes : Nat := 0
  dmpdLo : Word := 0
  dmpdHi : Word := 0
  dmpst : Word := 0
  /-- The context whose addresses DMPD and its descriptor give. -/
  dmpFn : Nat := 96
  dmpAsid : Nat := 0
  screensAbandoned : Nat := 0
  deriving DecidableEq, Repr, Inhabited

/-- The physical function's own page registers and other module registers (R363, R365, R370). -/
structure ModRegs where
  hmap : List Word := [0, 0, 0, 0, 0, 0, 0, 0]
  vfsel : Word := 0
  asrt : Dword := 0
  qtb : Dword := 0
  evr : Dword := 0
  evrn : Word := 0
  evrh : Word := 0
  evrt : Word := 0
  deriving DecidableEq, Repr, Inhabited

/-- Rotation and slicing (R323, R369). -/
structure Sched where
  round : Nat := 0
  roundStart : Nat := 0
  turnFn : Option Nat := none
  turnStart : Nat := 0
  nextMap : Nat := 0
  /-- The hypervisor's choice at a stop: save, else drain (R336). -/
  choiceSave : Bool := true
  deriving DecidableEq, Repr, Inhabited

/-- One thing that the surroundings or the default policy have a step do. -/
inductive Action
  /-- The fragment issues its next instruction. -/
  | issue (r : FragRef)
  /-- The stream context executes its next command. -/
  | command (engine k : Nat)
  /-- An event of the opcode table. -/
  | event (i : Instr)
  /-- Time passes: cycles of the arithmetic clock. -/
  | elapse (cycles : Nat)
  /-- One cycle in which these fragments issue and these stream contexts execute a command (R330). -/
  | cycle (rs : List FragRef) (cs : List (Nat × Nat))
  /-- The surroundings have a held commit move one sector: which of those that can move (R208, R240). -/
  | drain (r : FragRef) (i : Nat)
  /-- The surroundings have a held SSTD, once it has settled, leave its bytes in an egress queue (R220, R240). -/
  | post (r : FragRef)
  /-- Bytes of the egress queues reach their place (R240). -/
  | egress (i : Nat)
  /-- The surroundings have the core keep the lines of a load in flight in its L1 (R221, R240). -/
  | keepLines (wave load : Nat)
  /-- The surroundings have a stream context pause after this many destination sectors (R193). -/
  | fillPart (engine k sectors : Nat)
  /-- Firmware loads a module, which MR4 is extended with (R409). -/
  | loadFirmware (digest : BitVec 384)
  /-- The policy core takes a while over the next vendor-defined request of a function's session, or completes the one
  that it has in hand (R411). -/
  | vendorSlow (fn : Nat)
  | vendorFinish (fn : Nat)
  /-- Symbols corrected on a FeleloLink lane (R400, R401). -/
  | linkSymbols (lane : Fin 16) (symbols : Nat)
  /-- The host puts a migration record into the module's reach (R359). -/
  | record (r : MigrationRecord)
  /-- A port sends flit slots, replays included (R380). -/
  | sendSlots (port n : Nat)
  /-- The surroundings write bytes of device memory at physical addresses, or of host memory. -/
  | poke (host : Bool) (addr : Nat) (bytes : List Byte)
  deriving DecidableEq, Repr

/-- Who executes the instruction at hand. -/
inductive Issuer
  | none
  | frag (r : FragRef)
  | engine (e k : Nat)
  deriving DecidableEq, Repr, Inhabited

/-- The memories of the system: physical, host, and the poisoned sectors (R165, R396). -/
structure Memories where
  dev : Mem := []
  host : Mem := []
  poison : List SecKey := []
  deriving DecidableEq, Repr, Inhabited

/-- What has left the module towards hosts and peers, newest first (R357, R378). -/
structure Outbox where
  defers : List (List Byte) := []
  peerReplies : List (BitVec 12 × PeerAnswer) := []
  messages : List (Nat × List Byte) := []
  /-- Invalidations acknowledged to the host: function, ASID and range (R201). -/
  acks : List (Nat × Nat × Nat × Nat) := []
  deriving DecidableEq, Repr, Inhabited

/-- The whole machine. -/
structure State where
  agenda : List Action := []
  issuer : Issuer := .none
  /-- Cycles of the arithmetic clock since reset, real time in the units of Config, and the clock
  state (R7, R414). -/
  cycle : Nat := 0
  time : Nat := 0
  clock : Nat := 0
  memories : Memories := {}
  waves : List Wave := []
  blocks : List Block := []
  launches : List Launch := []
  cores : List Core := []
  clusters : List Cluster := []
  lines : List LineCopy := []
  /-- What strong stores have left in the egress queues, oldest first (R240). -/
  egress : List Egress := []
  faults : List FaultReq := []
  nextFault : Nat := 0
  /-- Peers' requests that a full fault buffer refused and that execute again (R200). -/
  refused : List FaultReq := []
  engines : List XCtx := []
  contexts : List Context := []
  functions : List Function := []
  queues : List Queue := []
  peers : List PeerReq := []
  sched : Sched := {}
  mregs : ModRegs := {}
  maint : Maint := {}
  trust : Trust := {}
  ports : List Port := []
  outbox : Outbox := {}
  /-- Migration records in the module's reach (R359). -/
  records : List MigrationRecord := []
  deriving DecidableEq, Repr

/-- The machine stops with a fault. No meaning of this model ends so: every effect the manual gives is
a next state, traps and error ends included. -/
inductive Fault
  /-- Raised by the step alone, when the module holds in reset after a thermal trip and the host has
  not released it (R414). Safe: the hardware does nothing either. -/
  | heldInReset
  deriving DecidableEq, Repr

/-- The model gives the instruction no meaning here. -/
inductive Refusal
  /-- An arm of exec whose meaning is not written. Safe: nothing follows from it. -/
  | notModelled (mnemonic : String)
  /-- Raised by a meaning of a Tchieg instruction when no live fragment issues it, and by a command when
  no bound stream context executes it: there is no machine in which the instruction then runs. Safe. -/
  | noIssuer
  deriving DecidableEq, Repr

/-- The machine right after module reset, before boot stage 1 (R406); DESIGN CHOICE, log entry 3. -/
def State.reset : State :=
  { ports := List.replicate 36 {} }

end Sys2Proof.Machine
end

