-- ==== Sys2Proof/Machine/Mem.lean ====
section
/-!
DEFINITION. Byte memories and the accessors of the state: every read and write of a wave, a core, a
context or a memory goes through one of these.
-/

namespace Sys2Proof.Machine

/-- The byte at an address. -/
def Mem.read : Mem → Nat → Byte
  | [], _ => unlisted
  | (k, v) :: t, a => if k = a then v else Mem.read t a

/-- Write one byte, keeping the canonical form. -/
def Mem.write : Mem → Nat → Byte → Mem
  | [], a, b => if b = unlisted then [] else [(a, b)]
  | (k, v) :: t, a, b =>
    if k < a then (k, v) :: Mem.write t a b
    else if k = a then (if b = unlisted then t else (a, b) :: t)
    else if b = unlisted then (k, v) :: t else (a, b) :: (k, v) :: t

/-- Every address of the memory is above `a`. -/
def Mem.above (m : Mem) (a : Nat) : Bool := m.all fun c => a < c.1

/-- The canonical form: addresses strictly rising, no entry equal to an unlisted byte. -/
def Mem.wf : Mem → Bool
  | [] => true
  | (k, v) :: t => v != unlisted && Mem.above t k && Mem.wf t

/-- Write consecutive bytes from an address. -/
def Mem.writes (m : Mem) (a : Nat) : List Byte → Mem
  | [] => m
  | b :: t => Mem.writes (Mem.write m a b) (a + 1) t

/-- `n` consecutive bytes from an address. -/
def Mem.reads (m : Mem) (a n : Nat) : List Byte := (List.range n).map fun k => Mem.read m (a + k)

/-- The number that little-endian bytes hold (R3). -/
def natOfBytes : List Byte → Nat
  | [] => 0
  | b :: t => b.toNat + 256 * natOfBytes t

/-- A little-endian number of `n` bytes at an address. -/
def Mem.nat (m : Mem) (a n : Nat) : Nat := natOfBytes (Mem.reads m a n)

/-- The 64-bit pair of little-endian bytes. -/
def dwordOfBytes (bs : List Byte) : Dword := BitVec.ofNat 64 (natOfBytes (bs.take 8))

/-- The element of a list that satisfies `p`, changed by `f`; where none does, `mk` changed by `f` is
appended. -/
def upsert {α : Type} (p : α → Bool) (mk : α) (f : α → α) : List α → List α
  | [] => [f mk]
  | x :: t => if p x then f x :: t else x :: upsert p mk f t

/-- Change every element that satisfies `p`. -/
def updAll {α : Type} (p : α → Bool) (f : α → α) (l : List α) : List α :=
  l.map fun x => if p x then f x else x

/-! Numbering (R10). -/

/-- Cluster of the module that holds a physical module core. -/
def clusterOf (core : Nat) : Nat := core / 4

/-- Die that holds a cluster of the module. -/
def dieOfCluster (cluster : Nat) : Nat := cluster / 13

/-- Die that holds a physical module core. -/
def dieOf (core : Nat) : Nat := core / 52

/-! Waves, streams, fragments. -/

def State.wave (s : State) (w : Nat) : Wave := s.waves.getD w default
def State.block (s : State) (b : Nat) : Block := s.blocks.getD b default
def State.launch (s : State) (l : Nat) : Launch := s.launches.getD l default

def State.updWave (s : State) (w : Nat) (f : Wave → Wave) : State :=
  { s with waves := s.waves.modify w f }
def State.updBlock (s : State) (b : Nat) (f : Block → Block) : State :=
  { s with blocks := s.blocks.modify b f }
def State.updLaunch (s : State) (l : Nat) (f : Launch → Launch) : State :=
  { s with launches := s.launches.modify l f }

/-- The launch a wave belongs to. -/
def State.launchOf (s : State) (w : Nat) : Nat := (s.block (s.wave w).block).launch

/-- The other stream of the wave. -/
def otherSlice : Slice → Slice
  | .a => .c
  | .c => .a

/-- A stream of a wave; an absent address slice reads as an ended stream (R44). -/
def Wave.stream (w : Wave) : Slice → Stream
  | .a => w.a.getD { frags := [], regs := {}, ended := true }
  | .c => w.c

/-- Replace a stream of a wave. -/
def Wave.setStream (w : Wave) : Slice → Stream → Wave
  | .a, st => { w with a := some st }
  | .c, st => { w with c := st }

/-- The wave runs two streams (R42, R44). -/
def Wave.decoupled (w : Wave) : Bool := w.a.isSome

/-- Both streams have ended, or the one there is (R158). -/
def Wave.done (w : Wave) : Bool := (w.stream .a).ended && w.c.ended

def Stream.frag (st : Stream) (e : Nat) : Option Frag := (st.frags.getD e none)
def Stream.setFrag (st : Stream) (e : Nat) (f : Option Frag) : Stream :=
  { st with frags := st.frags.set e f }

/-- The live fragments of a stream with their entries. -/
def Stream.live (st : Stream) : List (Nat × Frag) :=
  (List.range st.frags.length).filterMap fun e => (st.frag e).map fun f => (e, f)

/-- Apply `f` to every fragment of a stream. -/
def Stream.mapFrags (st : Stream) (f : Frag → Frag) : Stream :=
  { st with frags := st.frags.map (Option.map f) }

/-- Apply `f` to every fragment of a wave. -/
def Wave.mapFrags (w : Wave) (f : Frag → Frag) : Wave :=
  { w with a := w.a.map (·.mapFrags f), c := w.c.mapFrags f }

/-- Every fragment of a wave. -/
def Wave.frags (w : Wave) : List Frag :=
  ((w.stream .a).live ++ w.c.live).map (·.2)

/-- The fragment a reference names. -/
def State.frag (s : State) (r : FragRef) : Option Frag := ((s.wave r.wave).stream r.slice).frag r.entry

/-! Cores, clusters, contexts, functions, queues. -/

def State.core (s : State) (k : Nat) : Core := (s.cores.find? (·.id == k)).getD { id := k }
def State.updCore (s : State) (k : Nat) (f : Core → Core) : State :=
  { s with cores := upsert (·.id == k) { id := k } f s.cores }

/-- Record what reaches a wave of a core from outside, for rollback (R391). -/
def State.input (s : State) (w : Nat) (i : Input) : State :=
  s.updCore (s.wave w).core fun c =>
    { c with inputs := c.inputs ++ [(c.nextInput, w, i)], nextInput := c.nextInput + 1 }

def State.cluster (s : State) (k : Nat) : Cluster := (s.clusters.find? (·.id == k)).getD { id := k }
def State.updCluster (s : State) (k : Nat) (f : Cluster → Cluster) : State :=
  { s with clusters := upsert (·.id == k) { id := k } f s.clusters }

/-- The events counted at reset: 1 to 8 in counters 0 to 7, none elsewhere (R402). -/
def resetCevt : List Word := [1, 2, 3, 4, 5, 6, 7, 8] ++ List.replicate 24 0

/-- A context as it is created (R373): VTIME 0, timers, shape table and counters zero, empty queues.
DESIGN CHOICE, log entry 28. -/
def newContext (fn asid : Nat) : Context :=
  { fn := fn, asid := asid, timers := List.replicate 4 {}, shapes := List.replicate 16 {},
    counters := List.replicate 32 0, cevt := resetCevt, aq := List.replicate 4 [],
    lastStamp := List.replicate 4 none }

def State.context? (s : State) (fn asid : Nat) : Option Context :=
  s.contexts.find? fun c => c.fn == fn && c.asid == asid
def State.context (s : State) (fn asid : Nat) : Context :=
  (s.context? fn asid).getD (newContext fn asid)
/-- Change a context that exists; nothing where it does not. -/
def State.updContext (s : State) (fn asid : Nat) (f : Context → Context) : State :=
  { s with contexts := updAll (fun c => c.fn == fn && c.asid == asid) f s.contexts }

def State.function (s : State) (fn : Nat) : Function :=
  (s.functions.find? (·.fn == fn)).getD { fn := fn }
def State.updFunction (s : State) (fn : Nat) (f : Function → Function) : State :=
  { s with functions := upsert (·.fn == fn) { fn := fn } f s.functions }

def State.queue (s : State) (q : Nat) : Queue := (s.queues.find? (·.id == q)).getD { id := q, fn := 0 }
def State.updQueue (s : State) (q : Nat) (f : Queue → Queue) : State :=
  { s with queues := updAll (·.id == q) f s.queues }

def State.xctx? (s : State) (e k : Nat) : Option XCtx :=
  s.engines.find? fun x => x.engine == e && x.k == k
def State.updXctx (s : State) (e k : Nat) (f : XCtx → XCtx) : State :=
  { s with engines := updAll (fun x => x.engine == e && x.k == k) f s.engines }

/-! The memories. -/

def State.devRead (s : State) (a : Nat) : Byte := s.memories.dev.read a
def State.devWrite (s : State) (a : Nat) (bs : List Byte) : State :=
  { s with memories := { s.memories with dev := s.memories.dev.writes a bs } }
def State.hostWrite (s : State) (a : Nat) (bs : List Byte) : State :=
  { s with memories := { s.memories with host := s.memories.host.writes a bs } }

/-- A typed buffer of a block. -/
def Block.typed (b : Block) : Buf → Mem
  | .w => b.wbuf
  | .a => b.abuf
  | .c => b.cbuf
/-- Bytes of a typed buffer of a block's allocation (R169). -/
def Block.typedSize (b : Block) : Buf → Nat
  | .w => b.wbufSize
  | .a => b.abufSize
  | .c => b.cbufSize
def Block.setTyped (b : Block) (m : Mem) : Buf → Block
  | .w => { b with wbuf := m }
  | .a => { b with abuf := m }
  | .c => { b with cbuf := m }

/-- The cell that tags the granule at an offset (R174). -/
def Block.cell? (b : Block) (off : Nat) : Option Cell := b.cells.find? (·.off == off / 16 * 16)
def Block.setCell (b : Block) (c : Cell) : Block :=
  { b with cells := upsert (·.off == c.off) c (fun _ => c) b.cells }

/-- Boot has completed, so that the functions answer (R406). -/
def State.up (s : State) : Bool := s.trust.boot == .booted

/-- The module is in recovery (R407). -/
def State.inRecovery (s : State) : Bool :=
  match s.trust.boot with
  | .recovery _ => true
  | _ => false

/-! Time (R7, R8, R344). -/

/-- Real ticks of 1 µs. -/
def State.ticks (s : State) : Nat := s.time / Config.unitsPerTick

/-- VTIME in virtual ns. -/
def Context.vns (c : Context) : Nat := c.vtime / Config.unitsPerNs

/-- Time passes by `n` cycles: real time by the current clock, and VTIME of every running context. -/
def State.elapse (s : State) (n : Nat) : State :=
  let u := n * Config.unitsPerCycle s.clock
  { s with
    cycle := s.cycle + n
    time := s.time + u
    contexts := s.contexts.map fun c =>
      if c.running then { c with vtime := c.vtime + u }
      else { c with contracts := c.contracts.map fun k => { k with stopped := k.stopped + u } } }

/-! Privileges, functions and their shares (R334, R364 to R368). -/

/-- A function is a VF. -/
def isVf (fn : Nat) : Bool := fn < Config.physFn

/-- CTXID-style function field: VF number in [6:0], PF in [7] (R317, R398). -/
def fnField (fn : Nat) : Nat := if isVf fn then fn else 128

/-- Byte that names a function in an event: 127 for the physical function (R374). -/
def fnByte (fn : Nat) : Byte := if isVf fn then BitVec.ofNat 8 fn else 127

def Function.en (f : Function) : Bool := f.cfg.getLsbD 0
def Function.ts (f : Function) : Bool := f.cfg.getLsbD 1
def Function.nen (f : Function) : Bool := f.cfg.getLsbD 11
def Function.node (f : Function) : Nat := (f.cfg.extractLsb' 12 12).toNat
def Function.scb (f : Function) : Nat := (f.cfg.extractLsb' 4 3).toNat
def Function.scn (f : Function) : Nat := (f.cfg.extractLsb' 7 4).toNat
/-- VFCLUS as a mask of module clusters. -/
def Function.clus (f : Function) : Nat := f.clusLo.toNat + f.clusHi.toNat % 2 ^ 20 * 2 ^ 32
def Function.fch (f : Function) : Nat := f.memLo.toNat + f.memHi.toNat % 2 ^ 16 * 2 ^ 32
def Function.cpk (f : Function) : Nat := f.memHi.toNat / 2 ^ 16 % 2 ^ 8
def Function.sbase (f : Function) : Nat := f.vfq.toNat % 128
def Function.snum (f : Function) : Nat := f.vfq.toNat / 256 % 256
def Function.qbase (f : Function) : Nat := f.vfq.toNat / 2 ^ 16 % 4096
def Function.qlog (f : Function) : Nat := f.vfq.toNat / 2 ^ 28
def Function.sliceTicks (f : Function) : Nat := f.slice.toNat % 65536
def Function.weight (f : Function) : Nat := max 1 (f.slice.toNat / 65536 % 256)
def Function.abase (f : Function) : Nat := f.asids.toNat % 8192
def Function.acnt (f : Function) : Nat := f.asids.toNat / 65536 % 16384

/-- A number of no ASID: the root table has 8,192 (R370). -/
def noAsid : Nat := 8192

/-- Core k of the module is enabled in its die's harvest map (R18, R363). -/
def State.coreEnabled (s : State) (k : Nat) : Bool :=
  let die := k / 52
  let bit := k % 52
  if bit < 32 then (s.mregs.hmap.getD (2 * die) 0).getLsbD bit
  else (s.mregs.hmap.getD (2 * die + 1) 0).getLsbD (bit - 32)

/-- The clusters a function may use: VFCLUS, or every cluster for the physical function (R364, R368). -/
def State.clusters? (s : State) (fn : Nat) : Nat :=
  if isVf fn then (s.function fn).clus else 2 ^ 52 - 1

/-- The physical cores of a function, in logical order (R364). -/
def State.logicalCores (s : State) (fn : Nat) : List Nat :=
  (List.range Config.cores).filter fun k =>
    s.coreEnabled k && (s.clusters? fn).testBit (clusterOf k)

/-- The logical number of a physical core within a function (R103, R364). -/
def State.logicalCore (s : State) (fn core : Nat) : Nat :=
  ((List.range core).filter fun k => s.coreEnabled k && (s.clusters? fn).testBit (clusterOf k)).length

/-- A node that a function under teardown still answers for, with refusals, whoever else has been given the
node meanwhile (R381, R382). -/
def State.tornNode (s : State) (node : Nat) : Bool :=
  s.functions.any fun f => isVf f.fn && f.tear.isSome && f.nen && f.node == node

/-- The function that answers to a node number (R377): one that is enabled before one that is not, and none
while the node is under teardown. -/
def State.fnOfNode (s : State) (node : Nat) : Option Function :=
  let has := fun (f : Function) => isVf f.fn && f.nen && f.node == node
  if s.tornNode node then none
  else (s.functions.find? fun f => f.en && has f).orElse fun _ => s.functions.find? has

/-- The function shows itself to the host: the physical one, and a VF with EN or TEAR (R376). -/
def State.presents (s : State) (fn : Nat) : Bool :=
  s.up && (fn == Config.physFn || (isVf fn && ((s.function fn).en || (s.function fn).tear.isSome)))

/-- The hardware ASID of a function's window and arrival queues (R370): its WASX, which indexes the
VF's range and is the ASID itself for the physical function. An index outside the range names no ASID of the
function: the answer is then no ASID at all (R365). -/
def State.wasxAsid (s : State) (fn : Nat) : Nat :=
  let f := s.function fn
  if isVf fn then (if f.wasx.toNat < f.acnt then f.abase + f.wasx.toNat else noAsid)
  else if f.wasx.toNat < 8192 then f.wasx.toNat else noAsid

/-! Events of the physical function's ring and error records (R374, R398). -/

/-- Post a 32-byte event record. -/
def State.postEvent (s : State) (bs : List Byte) : State :=
  let n := 2 ^ (s.mregs.evrn.toNat % 16)
  let t := s.mregs.evrt.toNat % 2 ^ 31
  let h := s.mregs.evrh.toNat % n
  if (t + 1) % n == h then
    { s with mregs := { s.mregs with evrt := s.mregs.evrt ||| 0x80000000 } }
  else
    let s := s.devWrite (s.mregs.evr.toNat + 32 * t) ((bs ++ List.replicate 32 0).take 32)
    { s with mregs := { s.mregs with
        evrt := BitVec.ofNat 32 ((t + 1) % n) ||| (s.mregs.evrt &&& 0x80000000) } }

/-- The 64 bytes of an error record (R398). -/
def ErrRec.bytes (r : ErrRec) : List Byte :=
  bytesOfNat 1 r.kind ++ bytesOfNat 1 r.unit ++ bytesOfNat 2 r.loc ++ bytesOfNat 2 r.bank ++
  bytesOfNat 2 r.col ++ bytesOfNat 4 r.row ++ bytesOfNat 2 r.ctx ++ bytesOfNat 2 r.asid ++
  bytesOfNat 8 r.vtime ++ bytesOfNat 8 r.rtime ++ bytesOfNat 8 r.pc.toNat ++
  bytesOfNat 4 r.eseq.toNat ++ bytesOfNat 4 r.info.toNat ++ bytesOfNat 8 r.addr.toNat ++
  bytesOfNat 4 r.count ++ bytesOfNat 2 r.queue ++ [0, 0]

/-- LOC of a core (R398). -/
def locOfCore (core quadrant : Nat) : Nat :=
  dieOf core + 4 * (core % 52 / 4) + 64 * (core % 4) + 256 * quadrant

end Sys2Proof.Machine
end

