-- ==== Sys2Proof/Machine/Translate.lean ====
section
/-!
DEFINITION. Translation of device and host addresses (R197 to R201, R367), the fault buffers, and the
target side of a peer's access (R378).
-/

namespace Sys2Proof.Machine

/-- What the walk of a virtual address finds (R200). -/
inductive Walk
  | leaf (entry : Dword) (size : Nat)
  | miss
  | format
  deriving DecidableEq, Repr

/-- Bit k of a page-table entry. -/
def pteBit (e : Dword) (k : Nat) : Bool := e.getLsbD k

/-- The frame address of an entry, bits [56:13] (R198). -/
def pteFrame (e : Dword) : Nat := e.toNat / 2 ^ 13 % 2 ^ 44 * 2 ^ 13

/-- The reserved bits [12:6] and [63:57] of an entry are zero. -/
def pteReservedClear (e : Dword) : Bool := e.toNat / 64 % 128 == 0 && e.toNat / 2 ^ 57 == 0

/-- Walk the levels whose index bits start at the listed positions; `leafOk` says whether a leaf may
stand at the first of them (R197, R198). -/
def walkLevels (s : State) (va table : Nat) : List Nat → Bool → Walk
  | [], _ => .format
  | lo :: rest, leafOk =>
    let e : Dword := BitVec.ofNat 64 (s.memories.dev.nat (table + 8 * (va / 2 ^ lo % 1024)) 8)
    if !pteBit e 0 then .miss
    else if !pteReservedClear e then .format
    else if pteBit e 1 then
      if leafOk && pteFrame e % 2 ^ lo == 0 then .leaf e (2 ^ lo) else .format
    else if rest.isEmpty then .format
    else walkLevels s va (pteFrame e) rest true

/-- The walk of a virtual address under a hardware ASID, from its root (R197, R370). -/
def State.walk (s : State) (asid va : Nat) : Walk :=
  let root : Dword := BitVec.ofNat 64 (s.memories.dev.nat (s.mregs.asrt.toNat + 8 * asid) 8)
  if noAsid ≤ asid then .format
  else if !pteBit root 0 then .miss else walkLevels s va (pteFrame root) [43, 33, 23, 13] false

/-- The entry of a TLB that maps an address (R199). -/
def tlbFind (t : List TlbEntry) (fn asid va : Nat) : Option TlbEntry :=
  t.find? fun x => x.fn == fn && x.asid == asid && x.base ≤ va && va < x.base + x.size

/-- The translation as the core finds it: its TLB, its cluster's, then the walker (R199). -/
def State.lookup (s : State) (core : Option Nat) (fn asid va : Nat) : Walk :=
  match core with
  | none => s.walk asid va
  | some k =>
    match (tlbFind (s.core k).tlb fn asid va).orElse
        (fun _ => tlbFind (s.cluster (clusterOf k)).tlb fn asid va) with
    | some x => .leaf x.leaf x.size
    | none => s.walk asid va

/-- Keep at most `n` entries, the newest first. -/
def keep {α : Type} (n : Nat) (l : List α) : List α := l.take n

/-- Record a translation in the core's and the cluster's TLB (R199). -/
def State.fillTlb (s : State) (core : Option Nat) (fn asid va : Nat) : State :=
  match core with
  | none => s
  | some k =>
    match s.lookup (some k) fn asid va with
    | .leaf e size =>
      let x : TlbEntry := { fn := fn, asid := asid, base := va / size * size, size := size, leaf := e }
      let add := fun (n : Nat) (t : List TlbEntry) =>
        if (tlbFind t fn asid va).isSome then t else keep n (x :: t)
      let s := s.updCore k fun c => { c with tlb := add 256 c.tlb }
      s.updCluster (clusterOf k) fun c => { c with tlb := add 4096 c.tlb }
    | _ => s

/-- A physical address lies in a channel or package that the function may use (R367). -/
def State.ownsFrame (s : State) (fn pa : Nat) : Bool :=
  let f := s.function fn
  if pa < 0x3000000000 then !isVf fn || f.fch.testBit (pa / 0x100000000)
  else if 0x4000000000 ≤ pa && pa < 0x14000000000 then
    !isVf fn || f.cpk.testBit ((pa - 0x4000000000) / 0x2000000000)
  else false

/-- What an access asks of a leaf (R198, R200). -/
structure Access where
  write : Bool := false
  fetch : Bool := false
  /-- Of the host space. -/
  host : Bool := false
  /-- A store, atomic or copy of a program, which an executable page refuses (R99). -/
  code : Bool := false
  /-- Privilege of the code: 0 user, 1 guest, 2 host (R334). -/
  priv : Nat := 0
  deriving DecidableEq, Repr

/-- The outcome of a translation. -/
inductive Xlat
  | ok (pa : Nat)
  | miss
  | fault (cause : Nat)
  deriving DecidableEq, Repr

/-- The permission outcome of a leaf, by the priority of R200. -/
def State.permit (s : State) (fn : Nat) (acc : Access) (e : Dword) (size va : Nat) : Xlat :=
  let pa := pteFrame e + va % size
  let h := pteBit e 5
  if h != acc.host then .fault 4
  else if (!pteBit e 4 && acc.priv == 0) || (!h && !s.ownsFrame fn pa)
      || (acc.write && !pteBit e 2) || (acc.fetch && !pteBit e 3) then .fault 0
  else if acc.code && pteBit e 3 then .fault 5
  else .ok pa

/-- Translate one address (R197, R199, R200). DEDUCED, log entry 62. -/
def State.translate (s : State) (core : Option Nat) (fn asid : Nat) (acc : Access) (va : Nat) : Xlat :=
  if Config.addressTop ≤ va then .fault 1
  else match s.lookup core fn asid va with
    | .miss => .miss
    | .format => .fault 6
    | .leaf e size => s.permit fn acc e size va

/-- Translate an address for an agent that reaches device and host memory alike, whose leaf says which it is
(R181, R322): the outcome and the memory. -/
def State.reach (s : State) (fn asid : Nat) (acc : Access) (va : Nat) : Xlat × Place :=
  match s.lookup none fn asid va with
  | .leaf e _ => (s.translate none fn asid { acc with host := pteBit e 5 } va, if pteBit e 5 then .host else .dev)
  | _ => (s.translate none fn asid acc va, .dev)

/-- Count `n` of an event in the counters of a running context that are programmed to it and not
frozen (R348, R375, R402). -/
def Context.countEvent (c : Context) (ev n : Nat) : Context :=
  if !c.running then c else
  { c with counters := (List.range 32).map fun k =>
      let x := c.counters.getD k 0
      if (c.cevt.getD k 0).toNat == ev && !c.claims.getLsbD (12 + k / 8) then (x + n) % 2 ^ 63 else x }

def State.count (s : State) (fn asid ev n : Nat) : State :=
  s.updContext fn asid (·.countEvent ev n)

/-- Park a request in the die's fault buffer; a full buffer refuses it (R200). -/
def State.parkFault (s : State) (die fn asid va : Nat) (write : Bool) (who : Requester) :
    State × Option Nat :=
  let s := s.count fn asid 8 1
  if (s.faults.filter (·.die == die)).length < Config.faultBuffer then
    let id := s.nextFault
    ({ s with
        nextFault := id + 1
        faults := s.faults ++ [{ id := id, die := die, fn := fn, asid := asid, va := va, write := write,
                                 who := who }] }, some id)
  else (s, none)

/-- A peer's access waits for a translation, in die 0's fault buffer, for the manual names no die; refused by a
full one it is kept, and executes again (R200, R378). DESIGN CHOICE, log entry 67. -/
def State.parkPeer (s : State) (fn asid va : Nat) (write : Bool) (who : Requester) : State :=
  let r := s.parkFault 0 fn asid va write who
  match r.2 with
  | some _ => r.1
  | none => { r.1 with refused := r.1.refused ++
      [{ id := 0, die := 0, fn := fn, asid := asid, va := va, write := write, who := who }] }

/-! Poison (R396). -/

def State.poisoned (s : State) (p : Place) (a : Nat) : Bool :=
  s.memories.poison.contains { place := p, idx := a / 32 }

def State.setPoison (s : State) (k : SecKey) (on : Bool) : State :=
  let l := s.memories.poison.filter (· != k)
  { s with memories := { s.memories with poison := if on then l ++ [k] else l } }

/-- Write a line of a stack cache back to its backing, its marks with it (R173, R396). -/
def State.writeLine (s : State) (pa : Nat) (k : StackLine) : State :=
  (List.range 4).foldl (fun s j => s.setPoison { place := .dev, idx := pa / 32 + j } (k.marked.contains j))
    (s.devWrite pa k.bytes)

/-! Final writes. -/

/-- PKW: the waits of the block's waves parked on the cell at an offset; each raises it by 1, both streams of a
wave each their own (R174, R180, R263). DEDUCED, log entry 66. -/
def State.pkw (s : State) (b off : Nat) : Nat :=
  ((s.block b).waves.map fun w => ((s.wave w).frags.filter fun f =>
    match f.park with
    | some (.cell o _ woken _) => o == off && !woken
    | _ => false).length).foldl (· + ·) 0

/-- Byte k of a cell's image (R174). -/
def cellByte (c : Cell) (pkw k : Nat) : Byte :=
  let flags := (if c.ph then 1 else 0) + (if c.arrival then 2 else 0) + 4 * c.unit +
    (if c.ann then 16 else 0) + (if c.full then 32 else 0) + (if c.poi then 64 else 0)
  (bytesOfNat 4 c.exp.toNat ++ bytesOfNat 4 c.cnt.toNat ++ bytesOfNat 2 pkw ++ [0, 0] ++
    bytesOfNat 4 flags).getD k 0

/-- One byte of a place, as it finally stands; a tagged granule reads as its
cell's image (R174), and a peer's memory is not here. -/
def State.readPlace (s : State) (p : Place) (a : Nat) : Byte :=
  match p with
  | .scr b =>
    match (s.block b).cell? a with
    | some c => cellByte c (s.pkw b c.off) (a % 16)
    | none => (s.block b).scr.read a
  | .typed b u => ((s.block b).typed u).read a
  | .dev => s.devRead a
  | .host => s.memories.host.read a
  | .peer _ => 0

/-- Write one byte of a place finally. -/
def State.writePlace (s : State) (p : Place) (a : Nat) (v : Byte) : State :=
  match p with
  | .scr b => s.updBlock b fun k => { k with scr := k.scr.write a v }
  | .typed b u => s.updBlock b fun k => k.setTyped ((k.typed u).write a v) u
  | .dev => s.devWrite a [v]
  | .host => s.hostWrite a [v]
  | .peer _ => s

/-- Bytes of a place from an address. -/
def State.readBytes (s : State) (p : Place) (a n : Nat) : List Byte :=
  (List.range n).map fun k => s.readPlace p (a + k)

/-- Write bytes of a place from an address, marks apart. -/
def State.putRun (s : State) (p : Place) (a : Nat) : List Byte → State
  | [] => s
  | b :: t => State.putRun (s.writePlace p a b) p (a + 1) t

/-- The sectors that `n` bytes from an address cover whole. -/
def wholeSectors (a n : Nat) : List Nat :=
  ((List.range (n / 32 + 1)).map (a / 32 + ·)).filter fun k => a ≤ 32 * k && 32 * k + 32 ≤ a + n

/-- Write bytes of a place from an address; a sector written whole loses its poison mark (R396). -/
def State.writeBytes (s : State) (p : Place) (a : Nat) (bs : List Byte) : State :=
  (wholeSectors a bs.length).foldl (fun s i => s.setPoison { place := p, idx := i } false) (s.putRun p a bs)

/-- Bytes by element index: low `w` bits of a value as `n` bytes. -/
def dwordBytes (d : Dword) (n : Nat) : List Byte := bytesOfNat n d.toNat

/-! The target side of a peer's access (R378). -/

/-- New value of an atomic on `w` bits (R255); none where the operation code is unassigned. `swap` is
the n operand of .cas. The binary32 addition of .fadd is supplied by the caller. -/
def atomicValue (fadd : Word → Word → Word) (op : Nat) (signed : Bool) (w : Nat) (old d swap : Dword) :
    Dword :=
  let m : Nat := 2 ^ w
  let o := old.toNat % m
  let x := d.toNat % m
  let so : Int := if signed && 2 * o ≥ m then (o : Int) - m else o
  let sx : Int := if signed && 2 * x ≥ m then (x : Int) - m else x
  let r : Nat := match op with
    | 0 => (o + x) % m
    | 1 => if so ≤ sx then o else x
    | 2 => if so ≥ sx then o else x
    | 3 => Nat.land o x
    | 4 => Nat.lor o x
    | 5 => Nat.xor o x
    | 6 => x
    | 7 => if o == x then swap.toNat % m else o
    | 8 => (fadd (BitVec.ofNat 32 o) (BitVec.ofNat 32 x)).toNat
    | _ => o
  BitVec.ofNat 64 r

/-- The size in bytes of what a peer asks for. -/
def peerSize : PeerAsk → Nat
  | .load n => n
  | .store bs => bs.length
  | .atomic _ et _ _ => if et == 3#4 || et == 4#4 || et == 6#4 then 8 else 4

/-- What a peer's access finds at the target function (R378). -/
inductive PeerOutcome
  | done (answer : PeerAnswer)
  | miss (asid va : Nat)
  deriving DecidableEq, Repr

/-- Translate every byte of an access at the target, or say why not. -/
def peerPages (s : State) (fn asid base n : Nat) (write : Bool) : List Nat → Except PeerOutcome (List Nat)
  | [] => .ok []
  | k :: t =>
    match s.translate none fn asid { write := write, code := write } (base + k) with
    | .miss => .error (.miss asid (base + k))
    | .fault _ => .error (.done .refused)
    | .ok pa => match peerPages s fn asid base n write t with
      | .ok l => .ok (pa :: l)
      | .error e => .error e

/-- Some of these physical bytes are poisoned (R396). -/
def State.poisonedAny (s : State) (ps : List Nat) : Bool := ps.any fun pa => s.poisoned .dev pa

/-- Write each byte to its own physical address. -/
def writeScattered (s : State) : List Nat → List Byte → State
  | pa :: ps, b :: bs => writeScattered (s.devWrite pa [b]) ps bs
  | _, _ => s

/-- An access of a peer to offset `off` of a function's window: refused unless the function stands, the
range lies in the window and the translation grants it; loads and atomics act at the L2 home, and answer where the data
is uncorrectable (R397); stores are final at s, and one that writes a sector whole clears its mark (R378, R396).
DEDUCED, log entry 62. -/
def State.peerAccess (s : State) (fadd : Word → Word → Word) (fn off : Nat) (ask : PeerAsk) :
    State × PeerOutcome :=
  let f := s.function fn
  if !(isVf fn && f.en && f.nen && f.tear.isNone) || s.tornNode f.node then (s, .done .vfGone)
  else if f.wins.toNat < off + peerSize ask then (s, .done .refused)
  else
    let write := match ask with | .load _ => false | _ => true
    match peerPages s fn (s.wasxAsid fn) (f.winb.toNat + off) (peerSize ask) write (List.range (peerSize ask)) with
    | .error e => (s, e)
    | .ok ps =>
      let old := ps.map s.devRead
      match ask with
      | .load _ => (s, .done (if s.poisonedAny ps then .poisoned else .data old))
      | .store bs =>
        let s := writeScattered s ps bs
        let whole := ((ps.map (· / 32)).eraseDups).filter fun i => (List.range 32).all fun j => ps.contains (32 * i + j)
        (whole.foldl (fun s i => s.setPoison { place := .dev, idx := i } false) s, .done (.data []))
      | .atomic op et d swap =>
        if s.poisonedAny ps then (s, .done .poisoned) else
        let v := atomicValue fadd op.toNat (et == 1#4 || et == 3#4) (8 * (peerSize ask)) (dwordOfBytes old) d swap
        (writeScattered s ps (dwordBytes v (peerSize ask)), .done (.data old))

end Sys2Proof.Machine
end

