-- ==== Sys2Proof/Machine/Buffers.lean ====
section
/-!
DEFINITION. The write buffers and what moves through them (R202 to R217, R231, R416): settling, spill,
commit, abort, provisional sectors, the copies of narrower scopes, and the bytes a load sees.
-/

namespace Sys2Proof.Machine

/-! Sectors and spans. -/

/-- A sector's worth of empty places. -/
def emptyData : SecData := List.replicate 32 none

/-- The space code and owner under which range locks name a place (R194). -/
def lockSpace : Place → Nat × Nat
  | .scr b => (0, b)
  | .typed b .w => (1, b)
  | .typed b .a => (2, b)
  | .typed b .c => (3, b)
  | .dev => (4, 0)
  | .host => (5, 0)
  | .peer n => (6, n)

/-- A span meets the bytes [lo, hi] of a space. -/
def Span.meets (sp : Span) (space owner lo hi : Nat) : Bool :=
  sp.space == space && sp.owner == owner && sp.lo ≤ hi && lo ≤ sp.hi

/-- The owner by which spans name a sector: the ASID in device and host space. -/
def Sector.owner (k : Sector) : Nat :=
  match k.key.place with
  | .dev => k.asid
  | .host => k.asid
  | p => (lockSpace p).2

/-- The virtual sector address of a sector. -/
def Sector.base (k : Sector) : Nat :=
  match k.key.place with
  | .dev => 32 * k.va
  | .host => 32 * k.va
  | _ => 32 * k.key.idx

/-- Spans of the copies in flight and of the fill locks of a core (R194, R182). -/
def Core.spans (c : Core) : List Span :=
  c.copies.flatMap (fun k => k.srcSpan.toList ++ k.dstSpan.toList) ++ c.locks.map (·.span)

/-- A stored byte of the sector lies in a locked span of the core (R231). -/
def Sector.lockedBytes (k : Sector) (spans : List Span) : Bool :=
  (List.range 32).any fun i =>
    (k.data.getD i none).isSome &&
      spans.any fun sp => sp.meets (lockSpace k.key.place).1 k.owner (k.base + i) (k.base + i)

/-- The sector overlaps a locked span of the core, so that a spill passes it over (R210). -/
def Sector.lockedAny (k : Sector) (spans : List Span) : Bool :=
  spans.any fun sp => sp.meets (lockSpace k.key.place).1 k.owner k.base (k.base + 31)

/-- Later bytes over earlier ones. -/
def overlay (new old : SecData) : SecData :=
  (List.range 32).map fun i => ((new.getD i none).orElse fun _ => old.getD i none)

/-- The owner of a byte that is no owner's contribution (R211). -/
def noOwner : Nat := 2 ^ 64

/-- Waves set in CONFLICT when `inc` merges into `old` (R211): a byte that another member of the owner set
brought and that is still there. -/
def conflicts (inc old : Sector) : List Nat :=
  (List.range 32).flatMap fun i =>
    match inc.data.getD i none, old.data.getD i none with
    | some a, some b =>
      if a.owner != noOwner && b.owner != noOwner && b.owner != a.owner && old.owners.contains b.owner
      then [a.by', b.by'] else []
    | _, _ => []

def addOwner (l : List Nat) (o : Nat) : List Nat := if l.contains o then l else l ++ [o]

/-- Merge a sector that `owners` bring into a level; `spill` marks its bytes as spilled ones. -/
def mergeSector (owners : List Nat) (spill : Bool) (inc : Sector) : List Sector → List Sector × List Nat
  | [] => ([{ inc with owners := owners, spilledBy := if spill then owners else [] }], [])
  | k :: t =>
    if k.key == inc.key && k.group == inc.group then
      ({ k with
          data := overlay inc.data k.data
          marked := k.marked && inc.data.any (·.isNone)
          owners := owners.foldl addOwner k.owners
          regions := (k.regions ++ inc.regions).eraseDups
          spilledBy := if spill then owners.foldl addOwner k.spilledBy else k.spilledBy } :: t, conflicts inc k)
    else
      let r := mergeSector owners spill inc t
      (k :: r.1, r.2)

/-- Set CONFLICT in waves (R211, R212). -/
def State.setConflict (s : State) (ws : List Nat) : State :=
  ws.foldl (fun s w => s.updWave w fun x => { x with conflict := true }) s

/-- Set SPILLED in waves, and the level their spills reached (R210, R213). -/
def State.setSpilled (s : State) (ws : List Nat) (level : Nat) : State :=
  ws.foldl (fun s w =>
    s.updWave w fun x => { x with spilled := true, spillLevel := max x.spillLevel level }) s

/-- Count spilled sectors of a wave's context (R402). -/
def State.countSpill (s : State) (w : Nat) : State :=
  let l := s.launch (s.launchOf w)
  s.count l.fn l.asid 12 1

/-- The open regions of which a spilled sector holds a store are broken (R314). -/
def State.breakRegions (s : State) (k : Sector) : State :=
  k.regions.foldl (fun s x => s.updWave x.1 fun w =>
    let st := w.stream x.2.1
    w.setStream x.2.1 { st with region := st.region.map fun r => { r with spilled := r.spilled || r.opened ≤ x.2.2 } }) s

/-- The block of a wave. -/
def State.blockOf (s : State) (w : Nat) : Nat := (s.wave w).block

/-- The gang of a block, as one number (R29). -/
def State.gangOf (s : State) (b : Nat) : Nat := (s.block b).launch * 2 ^ 32 + (s.block b).gang

/-- A place that belongs to a core: scratchpad or typed buffer. -/
def Place.isLocal : Place → Bool
  | .scr _ => true
  | .typed _ _ => true
  | _ => false

/-! Delivery to peers. -/

/-- A peer's refusal of a spill or default commit is counted in the launch's record (R260). -/
def State.countNak (s : State) (w : Nat) (dflt : Bool) : PeerAnswer → State
  | .data _ | .poisoned => s
  | _ => if dflt then s.updLaunch (s.launchOf w) fun l => { l with naks := l.naks + 1 } else s

/-- A request of this module to a node (R377, R378). A node that another function of the module holds
answers in place; any other stays pending until PEER_REPLY or RESERVATION_LAPSE. -/
def State.askPeer (s : State) (fn node off : Nat) (ask : PeerAsk) (wave : Nat) (dflt : Bool) :
    State × Nat :=
  let id := s.peers.length
  let mk (st : PeerState) : PeerReq :=
    { id := id, fn := fn, node := node, off := off, ask := ask, since := s.time, st := st, wave := wave,
      default := dflt }
  match s.fnOfNode node with
  | none =>
    if s.tornNode node then
      (({ s with peers := s.peers ++ [mk (.answered .vfGone)] }).countNak wave dflt .vfGone, id)
    else ({ s with peers := s.peers ++ [mk .pending] }, id)
  | some f =>
    match s.peerAccess fadd32 f.fn off ask with
    | (s1, .done a) => (({ s1 with peers := s1.peers ++ [mk (.answered a)] }).countNak wave dflt a, id)
    | (s1, .miss asid va) =>
      let s2 := s1.parkPeer f.fn asid va true (.peer f.fn (BitVec.ofNat 12 (s.function fn).node) off ask (some id))
      ({ s2 with peers := s2.peers ++ [mk .pending] }, id)

/-- The runs of present bytes of a sector: offset in it and the bytes. -/
def runs (d : SecData) : List (Nat × List Byte) :=
  ((List.range 32).foldl (fun (acc : List (Nat × List Byte)) i =>
    match d.getD i none with
    | none => acc
    | some ⟨b, _, _⟩ =>
      match acc with
      | (o, bs) :: t => if o + bs.length == i then (o, bs ++ [b]) :: t else (i, [b]) :: acc
      | [] => [(i, [b])]) []).reverse

/-! Copies of narrower scopes (R416). -/

/-- The launch holds a provisional image of a sector: its own copies of the line are apart from every other's
(R217). -/
def State.provTag (s : State) (lid : Nat) (key : SecKey) : Option Nat :=
  if (s.launch lid).prov.any (·.key == key) then some lid else none

/-- The copy of a sector that a core, or a cluster, holds for the accesses of a launch. -/
def State.line? (s : State) (lid : Nat) (core cluster : Option Nat) (key : SecKey) : Option LineCopy :=
  s.lines.find? fun c => c.core == core && c.cluster == cluster && c.key == key && c.launch == s.provTag lid key

/-- The byte in a list of sectors of a group. -/
def sectorByte (l : List Sector) (group : Nat) (p : Place) (a : Nat) : Option Byte :=
  ((l.find? fun k => k.key == { place := p, idx := a / 32 } && k.group == group).bind
    fun k => k.data.getD (a % 32) none).map (·.val)

/-- The home of a byte as launch scope sees it: the owning launch's provisional image where there is one, else
memory (R217). -/
def State.homeByte (s : State) (lid : Nat) (p : Place) (a : Nat) : Byte :=
  (sectorByte (s.launch lid).prov lid p a).getD (s.readPlace p a)

/-- Write one byte at the home: into the provisional image where the launch has one of the sector. -/
def State.writeHome (s : State) (lid : Nat) (p : Place) (a : Nat) (v : Byte) : State :=
  let key : SecKey := { place := p, idx := a / 32 }
  if (s.launch lid).prov.any (·.key == key) then
    let put := fun (k : Sector) =>
      let old := (k.data.getD (a % 32) none).getD { val := v, owner := noOwner }
      { k with data := k.data.set (a % 32) (some { old with val := v }) }
    s.updLaunch lid fun l => { l with prov := updAll (·.key == key) put l.prov }
  else s.writePlace p a v

/-- Two copies stand at the same place for the same line. -/
def LineCopy.same (c x : LineCopy) : Bool :=
  x.core == c.core && x.cluster == c.cluster && x.key == c.key && x.launch == c.launch

/-- A copy's written bytes of a mask. -/
def LineCopy.sends (c : LineCopy) (m : Mask) (i : Nat) : Bool := (c.written &&& m).getLsbD i

/-- Mark the home of a sector or take its mark away: the image of a launch that has one, else memory (R217, R396). -/
def State.markHome (s : State) (launch : Option Nat) (k : SecKey) (b : Bool) : State :=
  match launch with
  | some lid =>
    if (s.launch lid).prov.any (·.key == k) then s.updLaunch lid fun l =>
      { l with prov := updAll (·.key == k) (fun x => { x with marked := b }) l.prov }
    else s.setPoison k b
  | none => s.setPoison k b

/-- The home of a byte is poisoned, as a launch sees it (R217, R396). -/
def State.homeMarked (s : State) (lid : Nat) (p : Place) (a : Nat) : Bool :=
  match (s.launch lid).prov.find? (·.key == { place := p, idx := a / 32 }) with
  | some k => k.marked || ((k.data.getD (a % 32) none).isNone && s.poisoned p a)
  | none => s.poisoned p a

/-- What strong accesses at block scope wrote over bytes that their gang had brought to level g leaves the core: the
gang's newer bytes stand in the GWB too, so that its loads and its commits find them (R204, R221). -/
def State.intoGwb (s : State) (cl : Nat) (c : LineCopy) (m : Mask) : State :=
  let mine := fun (k : Sector) => k.key == c.key && c.blocks.any fun b => s.gangOf b == k.group
  let new := fun (k : Sector) (i : Nat) => (k.data.getD i none).map fun b =>
    if c.sends m i then { b with val := c.bytes.getD i 0 } else b
  let put := fun (k : Sector) => { k with data := (List.range 32).map (new k) }
  s.updCluster cl fun x => { x with gwb := updAll mine put x.gwb }

/-- Write the written bytes of a copy that lie in `m` into the next wider place that holds the line, else into the
home: the image of the launch that the copy serves, or memory (R217, R416). The mark goes with them, and a sector
written whole loses it (R396). -/
def State.writeBack (s : State) (c : LineCopy) (m : Mask) : State :=
  let whole := c.written &&& m == BitVec.allOnes 32
  let put := fun (x : LineCopy) => { x with
    bytes := (List.range 32).map fun i => if c.sends m i then c.bytes.getD i 0 else x.bytes.getD i 0
    written := x.written ||| (c.written &&& m)
    blocks := c.blocks.foldl addOwner x.blocks
    marked := c.marked || (x.marked && !whole) }
  let byte := fun (s : State) (i : Nat) =>
    let a := 32 * c.key.idx + i
    match c.launch with
    | some lid => s.writeHome lid c.key.place a (c.bytes.getD i 0)
    | none => s.writePlace c.key.place a (c.bytes.getD i 0)
  let home := fun (s : State) =>
    let s := (List.range 32).foldl (fun s i => if c.sends m i then byte s i else s) s
    if c.marked then s.markHome c.launch c.key true else if whole then s.markHome c.launch c.key false else s
  if c.written &&& m == 0 then s
  else match c.core with
  | some k =>
    let s := s.intoGwb (clusterOf k) c m
    let wider := fun (x : LineCopy) =>
      x.core == none && x.cluster == some (clusterOf k) && x.key == c.key && x.launch == c.launch
    if s.lines.any wider then { s with lines := updAll wider put s.lines } else home s
  | none => home s

/-- Write a copy outward and drop it (R416). -/
def State.writeOut (s : State) (c : LineCopy) : State :=
  { s with lines := s.lines.filter fun x => !c.same x }.writeBack c c.written

/-- Write out every copy that satisfies `p`, those of cores first. -/
def State.writeOuts (s : State) (p : LineCopy → Bool) : State :=
  let go := fun (s : State) (l : List LineCopy) => l.foldl (fun s c => s.writeOut c) s
  let s := go s (s.lines.filter fun c => c.core.isSome && p c)
  go s (s.lines.filter fun c => c.core.isNone && p c)

/-- Write out every copy of a core narrower than level L, and of its cluster (R416), as a CMT, SYNC or
ACQ wider than their scope does. -/
def State.writeOutAll (s : State) (core L : Nat) : State :=
  s.writeOuts fun c =>
    (2 ≤ L && c.core == some core) || (3 ≤ L && c.core == none && c.cluster == some (clusterOf core))

/-- The bytes that a sector holds, as a mask. -/
def Sector.mask (k : Sector) : Mask := maskOf fun i => (k.data.getD i none).isSome

/-- Bytes that a sector brings to the level of a place come after those that strong accesses have written into the
place's copies: these go outward first, so that the newer bytes follow them everywhere (R221, R416). -/
def State.giveWay (s : State) (core cluster : Option Nat) (k : Sector) : State :=
  let mine := (s.lines.filter fun c => c.key == k.key && c.core == core && c.cluster == cluster)
  mine.foldl (fun s c =>
    let s := s.writeBack c k.mask
    let clear := fun (x : LineCopy) => { x with written := x.written &&& ~~~k.mask }
    { s with lines := updAll c.same clear s.lines }) s

/-- The byte of a copy. -/
def LineCopy.byte (c : LineCopy) (a : Nat) : Byte := c.bytes.getD (a % 32) 0

/-- The byte below the buffers as a core's plain loads find it: its L1 copy, the cluster's, the home (R204,
R416). -/
def State.lineByte (s : State) (lid core : Nat) (p : Place) (a : Nat) : Byte :=
  let key : SecKey := { place := p, idx := a / 32 }
  match (s.line? lid (some core) none key).orElse fun _ => s.line? lid none (some (clusterOf core)) key with
  | some c => c.byte a
  | none => s.homeByte lid p a

/-- The sector is poisoned where a place that holds no copy of it takes one from: a wider copy, or the home (R396). -/
def State.markedAt (s : State) (lid : Nat) (from' : Option LineCopy) (k : SecKey) : Bool :=
  match from' with
  | some c => c.marked
  | none => match (s.launch lid).prov.find? (·.key == k) with
    | some x => x.marked || (x.data.any (·.isNone) && s.memories.poison.contains k)
    | none => s.memories.poison.contains k

/-- Take a copy of a sector at the core, or at the cluster, from the nearest wider place (R416), its mark with it
(R396); an L1 that is full evicts its oldest line (R19). -/
def State.takeLine (s : State) (lid core : Nat) (atCore : Bool) (k : SecKey) : State :=
  let cl := clusterOf core
  let at' : Option Nat × Option Nat := if atCore then (some core, none) else (none, some cl)
  if (s.line? lid at'.1 at'.2 k).isSome then s
  else
    let mine := s.lines.filter (·.core == some core)
    let s := if atCore && Config.l1Sectors ≤ mine.length then
      (match mine with
       | c :: _ => s.writeOut c
       | [] => s) else s
    let wider := if atCore then s.line? lid none (some cl) k else none
    let bytes := match wider with
      | some c => c.bytes
      | none => (List.range 32).map fun i => s.homeByte lid k.place (32 * k.idx + i)
    { s with lines := s.lines ++ [{ core := at'.1, cluster := at'.2, key := k, launch := s.provTag lid k
                                    bytes := bytes, written := 0, marked := s.markedAt lid wider k }] }

/-- The cluster in which a copy stands. -/
def LineCopy.inCluster (c : LineCopy) : Nat := (c.core.map clusterOf).getD (c.cluster.getD 0)

/-- Bytes that reach the home, or the provisional image of the launch `tag`, pass on the way the copies of it that
stand where `here` says: a copy follows where it has not itself written the byte, so that who has read them sees no
older ones (R204, R217, R234). -/
def State.patchLines (s : State) (here : Nat → Bool) (tag : Option Nat) (k : Sector) : State :=
  let mine := fun (c : LineCopy) => c.key == k.key && c.launch == tag && here c.inCluster
  { s with lines := updAll mine (fun c => { c with
      bytes := (List.range 32).map fun i => match k.data.getD i none with
        | some b => if c.written.getLsbD i then c.bytes.getD i 0 else b.val
        | none => c.bytes.getD i 0
      marked := c.marked && k.mask != BitVec.allOnes 32 }) s.lines }

/-- The clusters whose blocks have seen a sector before it leaves level g: that of the wave that moves it and those of
its owner blocks (R202). -/
def State.sawAt (s : State) (w : Nat) (owners : List Nat) (cl : Nat) : Bool :=
  cl == clusterOf (s.wave w).core || owners.any fun b => cl == clusterOf (s.block b).core

/-- Deliver the bytes of a sector to where they are final; `here` says which clusters have seen them. A shadow's stores
never leave its buffers (R395). -/
def State.deliver (s : State) (w : Nat) (dflt : Bool) (here : Nat → Bool) (k : Sector) : State × List Nat :=
  if (s.block (s.blockOf w)).shadow && !k.key.place.isLocal then (s, []) else
  match k.key.place with
  | .peer node =>
    (runs k.data).foldl (fun (acc : State × List Nat) r =>
      let q := acc.1.askPeer (s.launch (s.launchOf w)).fn node (32 * k.key.idx + r.1) (.store r.2) w dflt
      (q.1, acc.2 ++ [q.2])) (s, [])
  | p =>
    let s := (runs k.data).foldl (fun s r => s.writeBytes p (32 * k.key.idx + r.1) r.2) s
    let s := if k.marked then s.setPoison k.key true else s
    (if p.isLocal then s else s.patchLines here none k, [])

/-! Levels. -/

/-- The signature of a screened block takes in a sector that it brings to l, d or s (R395). -/
def State.sign (s : State) (b : Nat) (k : Sector) : State :=
  let sig := Config.crc64 (bytesOfNat 8 (32 * k.key.idx) ++
    bytesOfNat 4 (maskOf fun i => (k.data.getD i none).isSome).toNat ++
    k.data.map fun x => match x with | some b => b.val | none => 0)
  if (s.block b).screen.isNone then s else s.updBlock b fun x => { x with signature := x.signature + sig }

/-- The sector's home is in the L2 slice of a die. -/
def Sector.inSlice (k : Sector) (die : Fin 4) : Bool := Config.homeSlice k.key.idx == die

/-- The spans in which a commit or a spill from a core may place no byte of a sector: those of the core, and of the
core of the block whose scratchpad the sector lies in (R231). -/
def State.spansAt (s : State) (core : Nat) (k : Sector) : List Span :=
  (s.core core).spans ++ match k.key.place with
    | .scr b => if (s.block b).core == core then [] else (s.core (s.block b).core).spans
    | _ => []

/-- No span keeps the sector from spilling (R210, R231). -/
def State.spills (s : State) (core : Nat) (k : Sector) : Bool := !k.lockedAny (s.spansAt core k)

/-- Provisional sectors that the launches hold in a slice. -/
def State.provHeld (s : State) (die : Fin 4) : Nat :=
  (s.launches.map fun x => (x.prov.filter (·.inSlice die)).length).foldl (· + ·) 0

/-- Provisional sectors beyond half the ways of an L2 slice: the launch's oldest there that no span passes over spills
to d (R210, R231). -/
def State.trimProv (s : State) (w lid : Nat) (die : Fin 4) : State × List Nat :=
  if s.provHeld die ≤ Config.provSectors then (s, [])
  else
    match (s.launch lid).prov.find? fun k => k.inSlice die && s.spills (s.wave w).core k with
    | none => (s, [])
    | some o =>
      let s := s.writeOuts fun c => c.launch == some lid && c.key == o.key
      let o := ((s.launch lid).prov.find? (·.key == o.key)).getD o
      let s := s.updLaunch lid fun x => { x with prov := x.prov.filter (·.key != o.key) }
      let ws := o.owners.flatMap fun b => (s.block b).waves
      let s := (s.setSpilled ws 4).breakRegions o
      (s.countSpill w).deliver w true (fun _ => true) o

/-- Bring a sector of its owner blocks to level l for its launch: provisional in an abortable launch, else
delivered; beyond the provisional limit of its slice the oldest spills to d (R203, R210, R211). -/
def State.arriveL (s : State) (w : Nat) (dflt spill : Bool) (k : Sector) : State × List Nat :=
  let bid := s.blockOf w
  let s := s.sign bid k
  if (s.block bid).shadow then (s, []) else
  let lid := (s.block bid).launch
  let l := s.launch lid
  let here := s.sawAt w k.owners
  if k.key.place == .dev && l.packet.abort then
    -- copies taken of the line before its image became provisional go out to memory first (R217)
    let s := if (s.provTag lid k.key).isNone then s.writeOuts fun c => c.key == k.key && c.launch.isNone else s
    let r := mergeSector k.owners spill { k with group := lid } (s.launch lid).prov
    let s := (s.updLaunch lid fun x => { x with prov := r.1 }).setConflict r.2
    (s.patchLines here (some lid) k).trimProv w lid (Config.homeSlice k.key.idx)
  else s.deliver w dflt here k

/-- Spill the oldest sector of a cluster's GWB that no span passes over, for an arrival from a core. -/
def State.spillG (s : State) (core : Nat) : State :=
  let cl := clusterOf core
  match (s.cluster cl).gwb.find? (s.spills core) with
  | none => s
  | some k =>
    let s := s.updCluster cl fun c => { c with gwb := c.gwb.filter (· != k) }
    let ws := k.owners.flatMap fun b => (s.block b).waves
    let s := s.setSpilled ws (if (s.launch (s.block (k.owners.headD 0)).launch).packet.abort then 3 else 4)
    let s := s.breakRegions k
    ((s.countSpill (ws.headD 0)).arriveL (ws.headD 0) true true k).1

/-- Replace the wave that brings a sector's bytes. -/
def Sector.stamp (k : Sector) (w : Nat) : Sector :=
  { k with data := k.data.map fun x => x.map fun b => { b with by' := w } }

/-- Replace the owner of a sector's bytes, those of no owner apart. -/
def Sector.own (k : Sector) (o : Nat) : Sector :=
  { k with data := k.data.map fun x => x.map fun b => if b.owner == noOwner then b else { b with owner := o } }

/-- Bring a sector to level g: into the allocation for core-local places, else the GWB, its bytes the
contribution of the block (R203, R205). -/
def State.arriveG (s : State) (w : Nat) (spill : Bool) (k : Sector) : State × List Nat :=
  let bid := s.blockOf w
  if k.key.place.isLocal then s.deliver w true (fun _ => true) k
  else
    let core := (s.wave w).core
    let cl := clusterOf core
    let g := s.gangOf bid
    let s := s.giveWay none (some cl) k
    let present := (s.cluster cl).gwb.any fun x => x.key == k.key && x.group == g
    let s := if !present && Config.gwbSectors ≤ (s.cluster cl).gwb.length then s.spillG core else s
    let r := mergeSector [bid] spill { k.own bid with group := g } (s.cluster cl).gwb
    ((s.updCluster cl fun c => { c with gwb := r.1 }).setConflict r.2, [])

/-- Spill the oldest sector of a core's BWB that no span passes over. -/
def State.spillB (s : State) (core : Nat) : State :=
  match (s.core core).bwb.find? (s.spills core) with
  | none => s
  | some k =>
    let s := s.updCore core fun c => { c with bwb := c.bwb.filter (· != k) }
    let s := (s.setSpilled k.owners 2).breakRegions k
    ((s.countSpill (k.owners.headD 0)).arriveG (k.owners.headD 0) true k).1

/-- Bring a sector to level b (R205, R208). -/
def State.arriveB (s : State) (w : Nat) (spill : Bool) (k : Sector) : State :=
  let bid := s.blockOf w
  let core := (s.wave w).core
  let s := s.giveWay (some core) none k
  let present := (s.core core).bwb.any fun x => x.key == k.key && x.group == bid
  let s := if !present && Config.bwbSectors ≤ (s.core core).bwb.length then s.spillB core else s
  let r := mergeSector [w] spill { k.own w with group := bid } (s.core core).bwb
  (s.updCore core fun c => { c with bwb := r.1 }).setConflict r.2

/-- The GWB of a core's cluster can take `n` more sectors, spilling what no span passes over (R210). -/
def State.roomG (s : State) (core n : Nat) : Bool :=
  let g := (s.cluster (clusterOf core)).gwb
  g.length + n ≤ Config.gwbSectors + (g.filter (s.spills core)).length

/-- The BWB of a wave's core can take these sectors of its block, spilling what no span passes over (R210). -/
def State.roomB (s : State) (w : Nat) (keys : List SecKey) : Bool :=
  let c := s.core (s.wave w).core
  let bid := s.blockOf w
  let new := keys.filter fun k => !c.bwb.any fun x => x.key == k && x.group == bid
  let excess := c.bwb.length + new.length - Config.bwbSectors
  excess ≤ (c.bwb.filter (s.spills c.id)).length && (excess == 0 || s.roomG c.id excess)

/-- The slices can take these sectors as provisional ones of a launch, spilling what no span passes over (R210). -/
def State.roomL (s : State) (lid core : Nat) (keys : List SecKey) : Bool :=
  let prov := (s.launch lid).prov
  !(s.launch lid).packet.abort || (List.finRange 4).all fun die =>
    let new := keys.filter fun k => k.place == .dev && Config.homeSlice k.idx == die && !prov.any (·.key == k)
    new.isEmpty || s.provHeld die + new.length ≤
      Config.provSectors + (prov.filter fun k => k.inSlice die && s.spills core k).length

/-- The bytes of a WWB sector that stores before order number `cut` wrote, and the rest (R207). -/
def Sector.split (k : Sector) (cut : Nat) : Sector × Sector :=
  ({ k with data := k.data.map fun x => x.bind fun b => if b.by' < cut then some b else none
            regions := k.regions.filter (·.2.2 < cut) },
   { k with data := k.data.map fun x => x.bind fun b => if b.by' < cut then none else some b
            regions := k.regions.filter (cut ≤ ·.2.2) })

def Sector.isEmpty (k : Sector) : Bool := k.data.all (·.isNone)

/-- The sectors at level `n` that a commit of wave `w` takes up, those of its WWB as far as stores before `cut` wrote them
(R208). -/
def State.heldAt (s : State) (w cut : Nat) : Nat → List Sector
  | 0 => ((s.wave w).wwb.map fun k => (k.split cut).1).filter fun k => !k.isEmpty
  | 1 => (s.core (s.wave w).core).bwb.filter fun k => k.group == s.blockOf w && k.owners.contains w
  | 2 => (s.cluster (clusterOf (s.wave w).core)).gwb.filter fun k =>
      k.group == s.gangOf (s.blockOf w) && k.owners.contains (s.blockOf w)
  | _ => (s.launch (s.launchOf w)).prov.filter fun k => k.owners.contains (s.blockOf w)

/-- The sectors that a commit of wave `w` to level L moves, from every buffer below l that lies below L (R208). -/
def State.movable (s : State) (w L cut : Nat) : List Sector := (List.range (min L 3)).flatMap (s.heldAt w cut)

/-- The buffers above have room for the sectors that a commit moves (R210). -/
def State.commitRoom (s : State) (w L cut : Nat) : Bool :=
  let wv := s.wave w
  let ks := ((s.movable w L cut).map (·.key)).eraseDups
  (L == 0 || s.roomB w (((s.movable w 1 cut).map (·.key)).eraseDups)) &&
    (L < 2 || s.roomG wv.core (ks.filter fun k => !k.place.isLocal &&
      !(s.cluster (clusterOf wv.core)).gwb.any fun x => x.key == k && x.group == s.gangOf wv.block).length) &&
    (L != 3 || s.roomL (s.block wv.block).launch wv.core ks)

/-- Every store of the wave before `cut` has settled, no byte the commit moves lies in a locked
span, and the buffers have room (R207, R210, R231). -/
def State.commitReady (s : State) (w L cut : Nat) : Bool :=
  (s.wave w).pend.all (fun p => cut ≤ p.seq) && (s.wave w).privPend.all (fun p => cut ≤ p.seq) &&
  (!(s.movable w L cut ++ (if 4 ≤ L then s.heldAt w cut 3 else [])).any fun k =>
    k.lockedBytes (s.spansAt (s.wave w).core k)) && s.commitRoom w L cut

/-- The sectors of a list that satisfy `mine` go one level up, each by `up`, in their order. -/
def climb (up : State → Sector → State × List Nat) (s : State) (ks : List Sector) : State × List Nat :=
  ks.foldl (fun (acc : State × List Nat) k =>
    let q := up acc.1 k
    (q.1, acc.2 ++ q.2)) (s, [])

/-- CMT.L of a wave for the stores before `cut` (R208): the sectors climb level by level, from level `n` those that
satisfy `p n`. The numbers of the peer requests that carry its peer stores are answered. DESIGN CHOICE, log entry 64. -/
def State.commitWhere (s : State) (w L cut : Nat) (dflt : Bool) (p : Nat → SecKey → Bool) :
    State × List Nat :=
  let bid := s.blockOf w
  let core := (s.wave w).core
  let cl := clusterOf core
  -- WWB to b
  let parts := (s.wave w).wwb.map fun k => if p 0 k.key then k.split cut else ({ k with data := [] }, k)
  let s := s.updWave w fun x => { x with wwb := (parts.map (·.2)).filter fun k => !k.isEmpty }
  let s := (parts.filter fun q => !q.1.isEmpty).foldl (fun s q => s.arriveB w false (q.1.stamp w)) s
  if L < 2 then (s, []) else
  -- b to g
  let mineB := fun (k : Sector) => k.group == bid && k.owners.contains w && p 1 k.key
  let up := (s.core core).bwb.filter mineB
  let s := s.updCore core fun c => { c with bwb := c.bwb.filter fun k => !mineB k }
  let r := climb (fun s k => s.arriveG w false (k.stamp w)) s up
  if L < 3 then r else
  -- g to l
  let g := s.gangOf bid
  let mineG := fun (k : Sector) => k.group == g && k.owners.contains bid && p 2 k.key
  let up := (r.1.cluster cl).gwb.filter mineG
  let s := r.1.updCluster cl fun c => { c with gwb := c.gwb.filter fun k => !mineG k }
  let r' := climb (fun s k => s.arriveL w dflt false (k.stamp w)) s up
  let r := (r'.1, r.2 ++ r'.2)
  if L < 4 then r else
  -- l to d
  let lid := (s.block bid).launch
  let mineL := fun (k : Sector) => k.owners.contains bid && p 3 k.key
  let s := r.1.writeOuts fun c => c.launch == some lid && (r.1.launch lid).prov.any fun k => mineL k && k.key == c.key
  let up := (s.launch lid).prov.filter mineL
  let s := s.updLaunch lid fun x => { x with prov := x.prov.filter fun k => !mineL k }
  let r' := climb (fun s k => s.deliver w dflt (fun _ => true) k) s up
  (r'.1, r.2 ++ r'.2)

/-- CMT.L of a wave (R208): every sector. -/
def State.commit (s : State) (w L cut : Nat) (dflt : Bool) : State × List Nat :=
  s.commitWhere w L cut dflt fun _ _ => true

/-! Abort (R213). -/

/-- An owner leaves a sector: the bytes that it brought stay and count as no owner's contribution (R211). -/
def Sector.disown (k : Sector) (o : Nat) : Sector :=
  { k with
    owners := k.owners.filter (· != o)
    data := k.data.map fun x => x.map fun b => if b.owner == o then { b with owner := noOwner } else b }

/-- What ABT does at one level: the sectors kept, how many stay because shared, whether any was found. -/
def abortLevel (o : Nat) (atL : Bool) (mine : Sector → Bool) :
    List Sector → List Sector × Nat × Bool
  | [] => ([], 0, false)
  | k :: t =>
    let r := abortLevel o atL mine t
    if !(mine k && k.owners.contains o) then (k :: r.1, r.2.1, r.2.2)
    else if k.owners == [o] && !k.spilledBy.contains o then (r.1, r.2.1, true)
    else
      let k' := k.disown o
      if k'.owners.isEmpty && !atL then (r.1, r.2.1 + 1, true) else (k' :: r.1, r.2.1 + 1, true)

/-- ABT.L of a wave for the stores before `cut`: the state after and the status word of R214. -/
def State.abort (s : State) (w L cut : Nat) : State × Word :=
  let wv := s.wave w
  let bid := wv.block
  let lid := (s.block bid).launch
  let L := if L == 3 && !(s.launch lid).packet.abort then 2 else L
  let parts := wv.wwb.map fun k => k.split cut
  let f0 := parts.any fun p => !p.1.isEmpty
  let s := s.updWave w fun x => { x with wwb := (parts.map (·.2)).filter fun k => !k.isEmpty }
  let rb := if 1 ≤ L then abortLevel w false (fun k => k.group == bid) (s.core wv.core).bwb
    else ((s.core wv.core).bwb, 0, false)
  let s := if 1 ≤ L then s.updCore wv.core fun c => { c with bwb := rb.1 } else s
  let cl := clusterOf wv.core
  let rg := if 2 ≤ L then abortLevel bid false (fun k => k.group == s.gangOf bid) (s.cluster cl).gwb
    else ((s.cluster cl).gwb, 0, false)
  let s := if 2 ≤ L then s.updCluster cl fun c => { c with gwb := rg.1 } else s
  let rl := if 3 ≤ L then abortLevel bid true (fun _ => true) (s.launch lid).prov
    else ((s.launch lid).prov, 0, false)
  let s := if 3 ≤ L then s.updLaunch lid fun x => { x with prov := rl.1 } else s
  -- what strong accesses have written into copies of a line whose image is gone is not discarded with it
  let s := s.writeOuts fun c => c.launch == some lid && !(s.launch lid).prov.any (·.key == c.key)
  let left := rb.2.1 + rg.2.1 + rl.2.1
  let found := f0 || rb.2.2 || rg.2.2 || rl.2.2
  let kind := if wv.spilled && L < wv.spillLevel then 1
    else if 0 < left then 1 else if found then 0 else 2
  (s, BitVec.ofNat 32 (min left 65535 + 65536 * kind))

/-! Stores entering the WWB (R206, R207, R210). -/

/-- A place whose stores bypass the write buffers: CBUF (R203). -/
def Place.direct : Place → Bool
  | .typed _ .c => true
  | _ => false

/-- The sectors a wave's WWB holds, settled or not. -/
def Wave.wwbKeys (w : Wave) : List SecKey :=
  ((w.wwb.map (·.key)) ++ (w.pend.filter fun p => !p.key.place.direct).map (·.key)).eraseDups

/-- Spill the oldest settled sector of the wave's WWB that has no unsettled byte, no lock and no byte of the
arriving store (R210). -/
def State.spillW (s : State) (w : Nat) (arriving : List SecKey) : Option State :=
  let wv := s.wave w
  match wv.wwb.find? fun k =>
      !(wv.pend.any (·.key == k.key)) && !arriving.contains k.key && s.spills wv.core k with
  | none => none
  | some k =>
    if !s.roomB w [k.key] then none
    else
      let s := s.updWave w fun x => { x with wwb := x.wwb.filter (· != k) }
      let s := ((s.setSpilled [w] 1).breakRegions k).countSpill w
      some (s.arriveB w true (k.stamp w))

/-- Make room for the sectors of a store, all of them together; none when the store stalls (R207). -/
def State.roomFor (s : State) (w : Nat) (keys : List SecKey) : Nat → Option State
  | 0 => none
  | fuel + 1 =>
    let held := (s.wave w).wwbKeys
    let new := keys.filter fun k => !k.place.direct && !held.contains k
    if held.length + new.length ≤ Config.wwbSectors then some s
    else match s.spillW w keys with
      | none => none
      | some s => s.roomFor w keys fuel

/-- One byte run that a lane stores. -/
structure LaneStore where
  lane : Nat
  place : Place
  addr : Nat
  va : Nat
  bytes : List Byte
  deriving DecidableEq, Repr

/-- Split a lane's store by sector. -/
def LaneStore.parts (x : LaneStore) : List (SecKey × Nat × List (Nat × Byte)) :=
  let first := x.addr / 32
  let last := (x.addr + x.bytes.length - 1) / 32
  (List.range (last - first + 1)).map fun i =>
    let sec := first + i
    ({ place := x.place, idx := sec }, (x.va / 32 + i),
      (List.range x.bytes.length).filterMap fun j =>
        if (x.addr + j) / 32 == sec then some ((x.addr + j) % 32, x.bytes.getD j 0) else none)

/-- Put the stores of one instruction into the wave's WWB, unsettled and by ascending lane, so that of several lanes which
store one byte the highest gives it its value: R12 orders no lanes and R206 only separate stores. None when they find no
room. DESIGN CHOICE, log entry 87. -/
def State.store (s : State) (w : Nat) (sl : Slice) (region : Bool) (xs : List LaneStore) : Option State :=
  let parts := xs.flatMap LaneStore.parts
  match s.roomFor w ((parts.map (·.1)).eraseDups) (Config.wwbSectors + 1) with
  | none => none
  | some s =>
    let n := (s.wave w).seq
    let ps : List Pend := parts.map fun p =>
      { seq := n, issued := s.cycle, slice := sl, key := p.1, va := p.2.1, bytes := p.2.2,
        region := region, fence := ((s.wave w).stream sl).fence }
    some (s.updWave w fun x => { x with pend := x.pend ++ ps, seq := n + 1 })

/-- A store of an open region, as the sector that takes it names it (R314). -/
def Pend.regions (p : Pend) (w : Nat) : List (Nat × Slice × Nat) := if p.region then [(w, p.slice, p.seq)] else []

/-- Put settled bytes into the WWB sector list of wave `w`. -/
def settleInto (w fn asid : Nat) (p : Pend) : List Sector → List Sector
  | [] =>
    [{ key := p.key, va := p.va, fn := fn, asid := asid, regions := p.regions w
       data := (List.range 32).map fun i => (p.bytes.reverse.find? (·.1 == i)).map fun b => { val := b.2, by' := p.seq } }]
  | k :: t =>
    if k.key == p.key then
      { k with
        va := p.va
        regions := k.regions ++ p.regions w
        data := (List.range 32).map fun i =>
          match p.bytes.reverse.find? (·.1 == i) with
          | some b => some { val := b.2, by' := p.seq }
          | none => k.data.getD i none } :: t
    else k :: settleInto w fn asid p t

/-- Record what a sector held before the open region's first store to it, a store of order number `seq` (R335). -/
def saveUndo (seq : Nat) (key : SecKey) (old : Option Sector) (st : Stream) : Stream :=
  { st with region := st.region.map fun r =>
      if seq < r.opened || (r.undo.any fun x => x.1 == key) then r else { r with undo := r.undo ++ [(key, old)] } }

/-- A store has settled: 128 cycles have passed and every earlier load of the wave has performed, so
also one that fed it through a queue (R207, R226, R227). -/
def Wave.settledStore (w : Wave) (now : Nat) (seq issued : Nat) : Bool :=
  issued + Config.settle ≤ now && !(w.loads.any fun l => l.id < seq)

/-- Settle one store: into the WWB's settled bytes, or into CBUF, where a sector that it writes whole loses its mark
(R203, R206, R396). -/
def State.settleStore (s : State) (w : Nat) (p : Pend) : State :=
  let l := s.launch (s.launchOf w)
  if p.key.place.direct then
    let s := p.bytes.foldl (fun s b => s.writePlace p.key.place (32 * p.key.idx + b.1) b.2) s
    if (List.range 32).all fun i => p.bytes.any (·.1 == i) then s.setPoison p.key false else s
  else s.updWave w fun x =>
    let old := x.wwb.find? (·.key == p.key)
    let x := { x with wwb := settleInto w l.fn l.asid p x.wwb }
    if p.region then x.setStream p.slice (saveUndo p.seq p.key old (x.stream p.slice)) else x

/-- The word of a private byte and its place in the line: byte b of lane l, given as l × 2^18 + b (R173). -/
def privWord (a : Nat) : Nat := a % 2 ^ 18 / 4
def privAt (a : Nat) : Nat := 4 * (a / 2 ^ 18) + a % 4

/-- Write a settled private byte: into the stack cache, which keeps the line of an unsettled store (R173, R207); a
shadow's into its own bytes (R395). -/
def Wave.setPriv (w : Wave) (a : Nat) (v : Byte) : Wave :=
  if !w.cache.any (·.word == privWord a) then { w with priv := w.priv.write a v }
  else
    let put := fun (k : StackLine) => { k with bytes := k.bytes.set (privAt a) v, dirty := true }
    { w with cache := updAll (·.word == privWord a) put w.cache }

/-- A private byte belongs to sector `j` of the line of `word`. -/
def inSector (word j a : Nat) : Bool := privWord a == word && privAt a / 32 == j

/-- Settle a private store: a sector that it writes whole loses its mark (R396). -/
def Wave.settlePriv (w : Wave) (p : PrivPend) : Wave :=
  let w := p.bytes.foldl (fun w b => w.setPriv b.1 b.2) w
  let whole := fun (word j : Nat) => (List.range 32).all fun i =>
    p.bytes.any fun b => inSector word j b.1 && privAt b.1 % 32 == i
  let clean := fun (k : StackLine) => { k with marked := k.marked.filter fun j => !whole k.word j }
  { w with cache := w.cache.map clean }

/-- The instruction that a word holds is a CMT, an ABT or a SYNC. -/
def commitWord (w : Word) : Bool :=
  match decodeWord w with
  | .ok (.cmt _ _) | .ok (.abt _ _ _) | .ok (.sync _ _) => true
  | _ => false

/-- A CMT, ABT or SYNC that issued before order number `seq` has not taken effect: a later store does not settle over
the bytes that it is to act on (R207, R209). DEDUCED, log entry 78. -/
def Wave.commitsBefore (w : Wave) (seq : Nat) : Bool :=
  w.frags.any fun f => (f.hold.map fun h => h.seq ≤ seq && !h.arrived && commitWord h.word).getD false

/-- The fragment has an instruction under way that will complete by itself: one held, and not waiting for
something as a WAITV, a RECV or a barrier wait does (R112). -/
def Frag.underway (f : Frag) : Bool :=
  f.hold.isSome && match f.park with
    | some .waitv => false
    | some (.recv _ _) => false
    | some (.cell _ _ _ _) => false
    | _ => true

/-- The other stream of a wave still holds an instruction that it issued before order number `fence` (R226); one that waits
for a translation is not waited for where the block stops, which saves it as it is (R337). -/
def State.behind (s : State) (w : Nat) (sl : Slice) (fence : Nat) : Bool :=
  let wv := s.wave w
  let stays := fun (f : Frag) => (s.block wv.block).stopping && match f.park with
    | some (.xlate _) => true
    | some .refused => true
    | _ => false
  (wv.stream (otherSlice sl)).live.any fun x =>
    x.2.underway && !stays x.2 && (x.2.hold.map fun h => decide (h.seq < fence)).getD false

/-- A commit that has not acted keeps the store back: one into CBUF, which no commit moves, it does not (R203). -/
def Wave.keptBack (w : Wave) (p : Pend) : Bool := !p.key.place.direct && w.commitsBefore p.seq

/-- Settle the wave's stores that are due, in issue order, those into CBUF and the others apart (R203, R207, R226). -/
def State.settleStores (s : State) (w : Nat) : State :=
  let wv := s.wave w
  let due := fun (p : Pend) =>
    wv.settledStore s.cycle p.seq p.issued && !wv.keptBack p && !s.behind w p.slice p.fence
  let buffered := wv.pend.filter fun p => !p.key.place.direct
  let direct := wv.pend.filter fun p => p.key.place.direct
  let s := (buffered.takeWhile due ++ direct.takeWhile due).foldl (fun s p => s.settleStore w p) s
  let s := s.updWave w fun x => { x with pend := buffered.dropWhile due ++ direct.dropWhile due }
  let dueP := wv.privPend.takeWhile fun p => wv.settledStore s.cycle p.seq p.issued
  s.updWave w fun x =>
    dueP.foldl Wave.settlePriv { x with privPend := x.privPend.drop dueP.length }

/-! The bytes a load sees (R204). -/

/-- The byte at place and address in the wave's own WWB: unsettled stores, newest first, then settled.
`before` is the order number of the load, which sees no later store of either stream (R226, R227). -/
def Wave.wwbByte (w : Wave) (before : Option Nat) (p : Place) (a : Nat) : Option Byte :=
  let key : SecKey := { place := p, idx := a / 32 }
  let sees := fun (x : Pend) => before.elim true (x.seq < ·)
  match (w.pend.reverse.findSome? fun x =>
      if x.key == key && sees x then (x.bytes.reverse.find? (·.1 == a % 32)).map (·.2) else none) with
  | some b => some b
  | none => ((w.wwb.find? (·.key == key)).bind fun k => (k.data.getD (a % 32) none)).map (·.val)

/-- The copy, if strong accesses have written this byte of it. -/
def LineCopy.own? (c : Option LineCopy) (a : Nat) : Option LineCopy := c.filter fun x => x.written.getLsbD (a % 32)

/-- The byte a plain load of a wave assembles, and whether it comes from a poisoned sector
(R204, R396, R416). What strong accesses have written into the core's copy is newer than what its gang has at level g
(R221); DEDUCED, log entry 86. -/
def State.loadByte (s : State) (w : Nat) (before : Option Nat) (p : Place) (a : Nat) : Byte × Bool :=
  let wv := s.wave w
  let bid := wv.block
  let lid := (s.block bid).launch
  match (wv.wwbByte before p a).orElse fun _ => sectorByte (s.core wv.core).bwb bid p a with
  | some v => (v, false)
  | none =>
    if p.isLocal then (s.readPlace p a, s.poisoned p a)
    else
      let key : SecKey := { place := p, idx := a / 32 }
      let mine := s.line? lid (some wv.core) none key
      match LineCopy.own? mine a with
      | some c => (c.byte a, c.marked)
      | none => match sectorByte (s.cluster (clusterOf wv.core)).gwb (s.gangOf bid) p a with
        | some v => (v, false)
        | none => match sectorByte (s.launch lid).prov lid p a with
          | some v => (v, s.homeMarked lid p a)
          | none =>
            let held := mine.orElse fun _ => s.line? lid none (some (clusterOf wv.core)) key
            (s.lineByte lid wv.core p a, s.markedAt lid held key)

/-- Bytes of a wave load, and whether any is poisoned. -/
def State.loadBytes (s : State) (w : Nat) (before : Option Nat) (p : Place) (a n : Nat) : List Byte × Bool :=
  let xs := (List.range n).map fun k => s.loadByte w before p (a + k)
  (xs.map (·.1), xs.any (·.2))

/-- The first poisoned sector that such a load reads (R397). -/
def State.loadMark (s : State) (w : Nat) (before : Option Nat) (p : Place) (a n : Nat) : Option SecKey :=
  ((List.range n).find? fun k => (s.loadByte w before p (a + k)).2).map fun k => { place := p, idx := (a + k) / 32 }

/-! The places of strong accesses (R218, R416). -/

/-- Before a wider access of a block performs on a sector, the narrower copies of the core and cluster are written
outward (R416). -/
def State.flushNarrower (s : State) (b core sc : Nat) (k : SecKey) : State :=
  let lid := (s.block b).launch
  let go := fun (s : State) (at' : Option Nat × Option Nat) => match s.line? lid at'.1 at'.2 k with
    | some c => s.writeOut c
    | none => s
  let s := if 2 ≤ sc then go s (some core, none) else s
  if 3 ≤ sc then go s (none, some (clusterOf core)) else s

/-- The place at which a scope acts: the core's copy, the cluster's, or none for the home. -/
def placeOf (core sc : Nat) : Option (Option Nat × Option Nat) :=
  if sc ≤ 1 then some (some core, none) else if sc == 2 then some (none, some (clusterOf core)) else none

/-- The byte that a block's strong access finds at the place of its scope, and whether it is poisoned (R218, R396, R416).
At a core or a cluster, what plain stores have brought to the level of the place is there too, the BWB before what strong
accesses wrote since and the GWB (R221); DEDUCED, log entry 86. -/
def State.strongSeen (s : State) (b core sc : Nat) (p : Place) (a : Nat) : Byte × Bool :=
  let lid := (s.block b).launch
  match placeOf core sc with
  | none => (s.homeByte lid p a, s.homeMarked lid p a)
  | some at' =>
    let copy := s.line? lid at'.1 at'.2 { place := p, idx := a / 32 }
    match if sc ≤ 1 then sectorByte (s.core core).bwb b p a else none with
    | some v => (v, false)
    | none => match if sc ≤ 1 then LineCopy.own? copy a else none with
      | some c => (c.byte a, c.marked)
      | none => match sectorByte (s.cluster (clusterOf core)).gwb (s.gangOf b) p a with
        | some v => (v, false)
        | none => match copy with
          | some c => (c.byte a, c.marked)
          | none => (s.homeByte lid p a, s.homeMarked lid p a)

/-- Read one device or host byte at the place of a scope (R218, R416). -/
def State.strongRead (s : State) (b core sc : Nat) (p : Place) (a : Nat) : State × Byte :=
  let lid := (s.block b).launch
  let k : SecKey := { place := p, idx := a / 32 }
  let s := s.flushNarrower b core sc k
  match placeOf core sc with
  | some at' =>
    let s := s.takeLine lid core at'.1.isSome k
    (s, (s.strongSeen b core sc p a).1)
  | none => (s, s.homeByte lid p a)

/-- Replace a byte of a sector of a group where it is buffered. -/
def putByte (group : Nat) (p : Place) (a : Nat) (v : Byte) (l : List Sector) : List Sector :=
  let put := fun (k : Sector) => { k with data := k.data.set (a % 32) ((k.data.getD (a % 32) none).map fun x => { x with val := v }) }
  updAll (fun k => k.key == { place := p, idx := a / 32 } && k.group == group) put l

/-- Write one device or host byte at the place of a scope (R218, R416). What the block's plain stores have brought to the
level of the place is overwritten there (R221), and the cores of the cluster that have not written the byte
themselves see what a gang-scope access writes (R416). DEDUCED, log entry 86. -/
def State.strongWrite (s : State) (b core sc : Nat) (p : Place) (a : Nat) (v : Byte) : State :=
  let lid := (s.block b).launch
  let k : SecKey := { place := p, idx := a / 32 }
  let s := s.flushNarrower b core sc k
  match placeOf core sc with
  | some at' =>
    let s := s.takeLine lid core at'.1.isSome k
    let put := fun (c : LineCopy) =>
      { c with bytes := c.bytes.set (a % 32) v, written := c.written ||| (1#32 <<< (a % 32)), blocks := addOwner c.blocks b }
    let see := fun (c : LineCopy) => if c.written.getLsbD (a % 32) then c else { c with bytes := c.bytes.set (a % 32) v }
    let tag := s.provTag lid k
    let here := fun (x : LineCopy) => x.key == k && x.launch == tag
    let s := { s with lines := updAll (fun x => x.core == at'.1 && x.cluster == at'.2 && here x) put s.lines }
    if sc ≤ 1 then s.updCore core fun c => { c with bwb := putByte b p a v c.bwb }
    else
      let s := { s with lines := updAll (fun x => here x && (x.core.map clusterOf) == some (clusterOf core)) see s.lines }
      s.updCluster (clusterOf core) fun c => { c with gwb := putByte (s.gangOf b) p a v c.gwb }
  | none => s.writeHome lid p a v

/-- The byte at the place of a scope is poisoned: in the place's copy, else at the home, where the launch's own image
of it is not (R217, R396). -/
def State.strongMarked (s : State) (b core sc : Nat) (p : Place) (a : Nat) : Bool := (s.strongSeen b core sc p a).2

/-- Strong accesses of one instruction have written whole sectors at the place of a scope: their marks go (R396). -/
def State.strongClean (s : State) (b core sc : Nat) (p : Place) (as : List Nat) : State :=
  let lid := (s.block b).launch
  let whole := ((as.map (· / 32)).eraseDups).filter fun i => (List.range 32).all fun j => as.contains (32 * i + j)
  whole.foldl (fun s i =>
    let k : SecKey := { place := p, idx := i }
    match placeOf core sc with
    | some at' =>
      let tag := s.provTag lid k
      let clean := fun (x : LineCopy) => { x with marked := false }
      { s with lines := updAll (fun x => x.core == at'.1 && x.cluster == at'.2 && x.key == k && x.launch == tag) clean s.lines }
    | none => s.markHome (some lid) k false) s

/-- Read consecutive bytes at the place of a scope. -/
def State.strongReads (s : State) (b core sc : Nat) (p : Place) (a : Nat) : Nat → State × List Byte
  | 0 => (s, [])
  | n + 1 =>
    let r := s.strongRead b core sc p a
    let t := r.1.strongReads b core sc p (a + 1) n
    (t.1, r.2 :: t.2)

/-- Write consecutive bytes at the place of a scope. -/
def State.strongWrites (s : State) (b core sc : Nat) (p : Place) (a : Nat) : List Byte → State
  | [] => s
  | v :: t => (s.strongWrite b core sc p a v).strongWrites b core sc p (a + 1) t

/-- Write the bytes of a strong store at the place of its scope. -/
def State.strongStores (s : State) (b core sc : Nat) (ws : List (Nat × List Byte)) : State :=
  (ws.foldl (fun s x => s.strongWrites b core sc .dev x.1 x.2) s).strongClean b core sc .dev
    (ws.flatMap fun x => (List.range x.2.length).map (x.1 + ·))

/-! Egress queues (R220, R240). -/

/-- A strong store leaves its egress queue. -/
def State.sendEgress (s : State) (i : Nat) : State :=
  match s.egress[i]? with
  | none => s
  | some e => { s with egress := s.egress.eraseIdx i }.strongStores (s.blockOf e.wave) e.core e.sc e.writes

/-- Every strong store that satisfies `p` leaves its egress queue, the oldest first. -/
def State.flushEgress (s : State) (p : Egress → Bool) : State :=
  (s.egress.filter p).foldl (fun s e => s.strongStores (s.blockOf e.wave) e.core e.sc e.writes)
    { s with egress := s.egress.filter fun e => !p e }

/-- A strong store of the wave that stands in an egress queue writes one of these bytes: an access to it keeps its order
(R220). -/
def State.egressMeets (s : State) (w a n : Nat) : Bool :=
  s.egress.any fun e => e.wave == w && e.writes.any fun x => a < x.1 + x.2.length && x.1 < a + n

end Sys2Proof.Machine
end

