-- ==== Sys2Proof/Machine/Cells.lean ====
section
/-!
DEFINITION. Barrier cells (R174 to R180), tile handles (R188 to R193), virtual reads and writes of the
device's own agents, error records (R398) and trace records (R403).
-/

namespace Sys2Proof.Machine

/-! Cells. -/

/-- Wake the fragments of a wave that are parked on a cell, naming the handle that poisoned it if one
did (R180, R193). -/
def Wave.wake (w : Wave) (off : Nat) (handle : Option Nat) : Wave :=
  w.mapFrags fun f =>
    match f.park with
    | some (.cell o p _ h) => if o == off then { f with park := some (.cell o p true (handle.orElse fun _ => h)) } else f
    | _ => f

/-- Wake every wave parked on a cell (R180, R193). -/
def State.wakeCell (s : State) (b off : Nat) (handle : Option Nat) : State :=
  (s.block b).waves.foldl (fun s w => (s.updWave w fun x => x.wake off handle).input w (.wake off handle)) s

/-- A thread arrival with expected count `e` (R175, R179): BARRIER_MISMATCH where the granule is no
thread-kind cell or the count differs. `remote` marks a BREMA. -/
def State.arriveThread (s : State) (b off : Nat) (e : Word) (remote : Bool) : Except TrapClass State :=
  match (s.block b).cell? off with
  | none => .error .barrierMismatch
  | some c =>
    if c.arrival then .error .barrierMismatch
    else
      let exp := if c.exp == 0 then e else c.exp
      if e != exp then .error .barrierMismatch
      else
        let cnt := c.cnt + 1
        let rem := (c.exp != 0 && c.remote) || remote
        if cnt == exp then
          let s := s.updBlock b fun x => x.setCell
            { c with ph := !c.ph, exp := 0, cnt := 0, remote := rem, acq := if rem then max 2 c.acq else c.acq }
          .ok (s.wakeCell b c.off none)
        else .ok (s.updBlock b fun x => x.setCell { c with exp := exp, cnt := cnt, remote := rem })

/-- The phase completes when the total has been announced and nothing remains (R176). -/
def State.closePhase (s : State) (b : Nat) (c : Cell) : State :=
  if c.ann && c.cnt == 0 then
    (s.updBlock b fun x => x.setCell { c with ph := !c.ph, full := true, ann := false, exp := 0 }).wakeCell b c.off none
  else s.updBlock b fun x => x.setCell c

/-- AEXP of a total on an arrival-kind cell (R176, R179). -/
def State.announce (s : State) (b off : Nat) (total : Word) : Except TrapClass State :=
  match (s.block b).cell? off with
  | none => .error .barrierMismatch
  | some c =>
    if !c.arrival then .error .barrierMismatch
    else if !c.ann then .ok (s.closePhase b { c with exp := total, ann := true, cnt := c.cnt + total })
    else if total != c.exp then .error .barrierMismatch
    else .ok (s.closePhase b c)

/-- Count units into an arrival-kind cell; none where there is no such cell (R176, R179). A wait on the cell
acquires from then on at the level that the counted bytes need (R229). -/
def State.countUnits (s : State) (b off units : Nat) (level : Nat := 1) : Option State :=
  match (s.block b).cell? off with
  | none => none
  | some c => if !c.arrival then none
    else some (s.closePhase b { c with cnt := c.cnt - BitVec.ofNat 32 units, acq := max c.acq level })

/-- AREL: the phase is released (R176). -/
def State.release (s : State) (b off : Nat) : Except TrapClass State :=
  match (s.block b).cell? off with
  | none => .error .barrierMismatch
  | some c => if !c.arrival then .error .barrierMismatch
    else .ok (s.updBlock b fun x => x.setCell { c with full := false })

/-- A range of scratchpad bytes holds a tagged granule (R178). -/
def Block.tagged (b : Block) (lo n : Nat) : Bool :=
  b.cells.any fun c => c.off < lo + n && lo < c.off + 16

/-- Set POI in a cell for a handle (R193). -/
def Block.poison (b : Block) (off handle : Nat) : Block :=
  { b with cells := updAll (·.off == off) (fun c => { c with poi := true, poiHandle := handle }) b.cells }

/-- Put `x` into a sorted list, before what it is not after. -/
def insertBy {α : Type} (le : α → α → Bool) (x : α) : List α → List α
  | [] => [x]
  | y :: t => if le x y then x :: y :: t else y :: insertBy le x t

/-- A list in order; what is equal stays in the order in which it stood. -/
def sortBy {α : Type} (le : α → α → Bool) (l : List α) : List α := l.foldr (insertBy le) []

/-- Distinct numbers below 2^k in a list, told apart by their bits from the highest down. -/
def distinctBits : Nat → List Nat → Nat
  | 0, l => if l.isEmpty then 0 else 1
  | k + 1, l =>
    if l.isEmpty then 0
    else distinctBits k (l.filter (·.testBit k)) + distinctBits k (l.filter fun x => !x.testBit k)

/-- Distinct numbers in a list. -/
def distinct (l : List Nat) : Nat := distinctBits ((l.foldl max 0).log2 + 1) l

/-! Virtual accesses of the device's own agents: packet cores, the policy core, the trace unit. -/

/-- Write bytes at virtual addresses; a byte whose translation does not grant it is dropped, and a sector written whole
loses its mark (R396). -/
def State.writeVirt (s : State) (fn asid va : Nat) (bs : List Byte) (host : Bool := false) : State :=
  let p : Place := if host then .host else .dev
  let at' := fun (s : State) (va : Nat) (go : Nat → State) =>
    match s.translate none fn asid { write := true, host := host, priv := 2 } va with
    | .ok pa => go pa
    | _ => s
  let s := (List.range bs.length).foldl (fun s k => at' s (va + k) fun pa => s.writePlace p pa (bs.getD k 0)) s
  (wholeSectors va bs.length).foldl (fun s i => at' s (32 * i) fun pa => s.setPoison { place := p, idx := pa / 32 } false) s

/-- Bytes at virtual addresses, in device or, for a queue's packets, in whichever memory the leaf gives (R322);
or why they cannot be read. -/
def State.readVirt (s : State) (fn asid va : Nat) (n : Nat) (any : Bool := false) : Except Xlat (List Byte) :=
  match n with
  | 0 => .ok []
  | n + 1 =>
    match (if any then s.reach fn asid { priv := 2 } va else (s.translate none fn asid { priv := 2 } va, .dev)) with
    | (.ok pa, p) =>
      if s.poisoned p pa then .error (.fault 0) else
      match s.readVirt fn asid (va + 1) n any with
      | .ok t => .ok (s.readPlace p pa :: t)
      | e => e
    | (x, _) => .error x

/-! Error records (R398). -/

/-- Write an error record: to the flash log, and to the error ring of the launch's queue where its save
area is large enough. The launch's first record gives its ERR (R326). -/
def State.record (s : State) (r : ErrRec) (launch : Option Nat) : State :=
  let s0 := { s with maint := { s.maint with log := s.maint.log ++ [r] } }
  match launch with
  | none => s0
  | some lid =>
    let l := s.launch lid
    if l.svsz < 16 then s0
    else
      let q := s.queue l.queue
      let addr := l.save.toNat + 64 * (q.errCount % 1024)
      let s1 := s0.writeVirt l.fn l.asid addr r.bytes
      let s2 := s1.updQueue l.queue fun x => { x with errCount := x.errCount + 1 }
      s2.updLaunch lid fun x => { x with err := if x.err == 0 then BitVec.ofNat 64 addr else x.err }

/-- The record of an event of a launch, with its context and times filled in. -/
def State.launchRec (s : State) (lid : Nat) (r : ErrRec) : ErrRec :=
  let l := s.launch lid
  { r with ctx := fnField l.fn, asid := l.asid, vtime := (s.context l.fn l.asid).vns, rtime := s.ticks,
           queue := l.queue }

/-! Trace records (R403). -/

/-- Write a trace record when the context's trace unit is enabled. -/
def State.trace (s : State) (fn asid kind core : Nat) (eseq : Word) (pc datum : Dword) : State :=
  let c := s.context fn asid
  let t := c.trace
  if !t.ctl.getLsbD 0 then s
  else
    let base := (pair t.baseLo t.baseHi).toNat
    let slots := (2 ^ (t.ctl.toNat / 4096 % 16) * 4096 - 32) / 32
    let at' := base + 32 + 32 * (t.count.toNat % slots)
    let rec' := bytesOfNat 2 kind ++ bytesOfNat 2 (s.logicalCore fn core) ++ bytesOfNat 4 eseq.toNat ++
      bytesOfNat 8 pc.toNat ++ bytesOfNat 8 c.vns ++ bytesOfNat 8 datum.toNat
    let s := s.writeVirt fn asid at' rec'
    let s := s.writeVirt fn asid base (bytesOfNat 4 (t.count + 1).toNat)
    s.updContext fn asid fun x => { x with trace := { x.trace with count := x.trace.count + 1 } }

/-! Tile handles (R188 to R193). -/

/-- A handle's slot and generation. -/
def hIdx (h : Nat) : Nat := h % 1024
def hGen (h : Nat) : Nat := h / 1024 % 64

def Core.handle (c : Core) (i : Nat) : HandleEntry := (c.handles.find? (·.idx == i)).getD { idx := i }
def State.updHandle (s : State) (core i : Nat) (f : HandleEntry → HandleEntry) : State :=
  s.updCore core fun c => { c with handles := upsert (·.idx == i) { idx := i } f c.handles }

/-- The next generation (R189). -/
def nextGen (g : Nat) : Nat := if g ≥ 63 then 1 else g + 1

/-- The handle is current and its entry accepts users (R189, R191, R192). -/
def HandleEntry.current (e : HandleEntry) (h : Nat) : Bool :=
  e.alloc && hGen h != 0 && e.gen == hGen h && !e.deferred

/-- Free an entry: the generation advances (R191). -/
def HandleEntry.free (e : HandleEntry) : HandleEntry :=
  { idx := e.idx, gen := nextGen e.gen }

/-- THFREE of an entry: at once without users, else deferred (R191). -/
def HandleEntry.release (e : HandleEntry) : HandleEntry :=
  if e.users == 0 then e.free else { e with deferred := true, pend := true }

/-- Count a user of a handle. -/
def State.addUser (s : State) (core h : Nat) : State :=
  s.updHandle core (hIdx h) fun e => { e with users := e.users + 1 }

/-- A user completes; the last one of a deferred entry frees it (R191). -/
def State.dropUser (s : State) (core h : Nat) : State :=
  s.updHandle core (hIdx h) fun e =>
    let e := { e with users := e.users - 1 }
    if e.users == 0 && e.deferred then
      (if e.gen == hGen h then e.free else { idx := e.idx, gen := e.gen }) else e

/-- Free every entry that a block allocated (R191). -/
def State.freeHandles (s : State) (core blk : Nat) : State :=
  s.updCore core fun c => { c with handles := c.handles.map fun e =>
    if e.alloc && e.block == blk then e.release else e }

end Sys2Proof.Machine
end

