-- ==== Sys2Proof/Machine/Transfer.lean ====
section
/-!
DEFINITION. Copies in flight (R194, R228, R229, R270 to R274) and the stopping of stream contexts
(R184, R187, R278).
-/

namespace Sys2Proof.Machine

/-- The mixed-radix indices of element `k` of a loop nest, innermost first (R271). -/
def nestIndex : List Nat → Nat → List Nat
  | [], _ => []
  | c :: t, k => (k % max 1 c) :: nestIndex t (k / max 1 c)

/-- Elements of a loop nest. -/
def nestSize (counts : List Nat) : Nat := counts.foldl (· * ·) 1

/-- The address of an element on one side (R271). -/
def CopySide.addr (x : CopySide) (counts : List Nat) (k : Nat) : Int :=
  ((nestIndex counts k).zip x.strides).foldl (fun a p => a + (p.1 : Int) * p.2) x.origin

/-- Lowest and highest byte that the walk reaches on one side (R194); none for an empty copy. -/
def CopySide.bounds (x : CopySide) (counts : List Nat) (esz : Nat) : Option (Int × Int) :=
  if nestSize counts == 0 then none
  else
    let ext := (counts.zip x.strides).map fun p => ((p.1 : Int) - 1) * p.2
    some (ext.foldl (fun a e => a + min 0 e) x.origin,
      ext.foldl (fun a e => a + max 0 e) x.origin + esz - 1)

/-- The space code under which spans name a side (R194). -/
def CopySide.lock (x : CopySide) (blk asid : Nat) : Nat × Nat :=
  match x.space with
  | 0 => (0, blk)
  | 1 => (match x.buf with | .w => 1 | .a => 2 | .c => 3, blk)
  | 2 => (4, asid)
  | 3 => (5, asid)
  | _ => (6, x.node)

/-- The place of a core-local side. -/
def CopySide.localPlace (x : CopySide) (blk : Nat) : Place :=
  if x.space == 0 then .scr blk else .typed blk x.buf

/-- What one half of an element's move comes to. -/
inductive CopyStep
  | bytes (s : State) (bs : List Byte)
  | wait (s : State) (req : Option Nat) (park : Option Nat)
  | err (code cause : Nat)

/-- The answer to a peer request. -/
def State.peerAnswer? (s : State) (id : Nat) : Option PeerAnswer :=
  match s.peers[id]? with
  | some r => match r.st with
    | .answered a => some a
    | _ => none
  | none => none

/-- A teardown has orphaned a peer request (R381). A copy that waits on it takes that for a refusal. DESIGN CHOICE, log
entry 53. -/
def State.peerOrphan (s : State) (id : Nat) : Bool :=
  match s.peers[id]? with
  | some r => r.st == .orphan
  | none => false

/-- The copy has itself written a byte of its source's place, which its later reads then find (R271). -/
def Copy.wrote (c : Copy) (a : Nat) : Bool :=
  c.src.space == c.dst.space && c.src.buf == c.dst.buf && (List.range c.done).any fun k =>
    let d := (c.dst.addr c.counts k).toNat
    d ≤ a && a < d + c.esz

/-- An element's address lies outside a peer's window of 2^32 bytes (R272). -/
def peerOutside (a : Int) (n : Nat) : Bool := a < 0 || (2 ^ 32 : Int) < a + n

/-- The level at which a wait for a copy's bytes acquires, by its destination (R229). -/
def CopySide.level (x : CopySide) : Nat := if x.space ≤ 1 then 1 else if x.space == 2 then 4 else 5

/-- Read one element of a copy's source (R228, R274). -/
def State.copyRead (s : State) (core : Nat) (c : Copy) (a : Int) : CopyStep :=
  let blk := (s.wave c.wave).block
  let lid := (s.block blk).launch
  let l := s.launch lid
  let n := c.esz
  match c.src.space with
  | 0 | 1 =>
    let p := c.src.localPlace blk
    let held := fun (k : Nat) => if c.wrote (a.toNat + k) then none else sectorByte (s.core core).bwb blk p (a.toNat + k)
    -- a byte that the BWB gives is not read from the poisoned home (R397)
    if (List.range n).any fun k => (held k).isNone && s.poisoned p (a.toNat + k) then .err 6 0
    else .bytes s ((List.range n).map fun k => (held k).getD (s.readPlace p (a.toNat + k)))
  | 2 | 3 =>
    let host := c.src.space == 3
    match s.translate (some core) l.fn l.asid { host := host, priv := l.priv } a.toNat with
    | .miss =>
      let r := s.parkFault (dieOf core) l.fn l.asid a.toNat false (.copy core c.idx)
      .wait r.1 none r.2
    | .fault cause => .err 2 cause
    | .ok pa =>
      let p : Place := if host then .host else .dev
      if s.poisoned p pa then .err 6 0 else .bytes s (s.readBytes p pa n)
  | _ =>
    if peerOutside a n then .err 3 0 else
    match c.req with
    | none =>
      let r := s.askPeer l.fn c.src.node a.toNat (.load n) c.wave false
      .wait r.1 (some r.2) none
    | some id =>
      match s.peerAnswer? id with
      | none => if s.peerOrphan id then .err 3 0 else .wait s (some id) none
      | some (.data bs) => .bytes s bs
      | some .poisoned => .err 6 0
      | some _ => .err 3 0

/-- The copy's last elements in a row, this one included, have written the whole sector of its address. -/
def Copy.covers (c : Copy) : Bool :=
  let at' := fun (k : Nat) => (c.dst.addr c.counts k).toNat
  let last := (List.range (min 32 (c.done + 1))).map fun i => at' (c.done - i)
  distinct ((last.filter fun a => a / 32 == at' c.done / 32).flatMap fun a => (List.range c.esz).map (a + ·)) == 32

/-- A sector that a copy has written whole loses its poison mark (R396). DEDUCED, log entry 36. -/
def State.copyClean (s : State) (c : Copy) (p : Place) (a : Nat) : State :=
  if s.memories.poison.isEmpty || !c.covers then s else s.setPoison { place := p, idx := a / 32 } false

/-- Write one element of a copy's destination (R229, R274). -/
def State.copyWrite (s : State) (core : Nat) (c : Copy) (a : Int) (bs : List Byte) : CopyStep :=
  let blk := (s.wave c.wave).block
  let lid := (s.block blk).launch
  let l := s.launch lid
  match c.dst.space with
  | 0 | 1 =>
    let p := c.dst.localPlace blk
    .bytes ((s.writeBytes p a.toNat bs).copyClean c p a.toNat) []
  | 2 | 3 =>
    let host := c.dst.space == 3
    match s.translate (some core) l.fn l.asid
        { write := true, host := host, code := true, priv := l.priv } a.toNat with
    | .miss =>
      let r := s.parkFault (dieOf core) l.fn l.asid a.toNat true (.copy core c.idx)
      .wait r.1 none r.2
    | .fault cause => .err 2 cause
    | .ok pa =>
      let p : Place := if host then .host else .dev
      .bytes ((s.writeBytes p pa bs).copyClean c p pa) []
  | _ =>
    if peerOutside a bs.length then .err 3 0 else
    match c.req with
    | none =>
      let r := s.askPeer l.fn c.dst.node a.toNat (.store bs) c.wave false
      .wait r.1 (some r.2) none
    | some id =>
      match s.peerAnswer? id with
      | none => if s.peerOrphan id then .err 3 0 else .wait s (some id) none
      | some (.data _) | some .poisoned => .bytes s []
      | some _ => .err 3 0

/-- How far a copy came. -/
inductive CopyRun
  | finished (s : State) (done : Nat)
  | waiting (s : State) (c : Copy)
  | failed (s : State) (done code cause : Nat)

/-- Walk the elements of a copy from `c.done` on, at most `fuel` of them, in walk order (R271). A copy
whose handle was invalidated stops at the next 32-byte sector boundary of its destination (R193). -/
def State.copyWalk (s : State) (core : Nat) (c : Copy) : Nat → CopyRun
  | 0 => .finished s c.done
  | fuel + 1 =>
    if nestSize c.counts ≤ c.done then .finished s c.done
    else
      let da := c.dst.addr c.counts c.done
      if c.stale.isSome && (c.done == 0 || da / 32 != c.dst.addr c.counts (c.done - 1) / 32) then .failed s c.done 4 0
      else
        let got := match c.got with
          | some bs => CopyStep.bytes s bs
          | none => s.copyRead core c (c.src.addr c.counts c.done)
        match got with
        | .err code cause => .failed s c.done code cause
        | .wait s' req park => .waiting s' { c with req := req, park := park }
        | .bytes s' bs =>
          let c' := { c with got := some bs, req := if c.got.isSome then c.req else none }
          match s'.copyWrite core c' da bs with
          | .err code cause => .failed s' c.done code cause
          | .wait s'' req park => .waiting s'' { c' with req := req, park := park }
          | .bytes s'' _ => s''.copyWalk core { c' with done := c.done + 1, got := none, req := none } fuel

/-- Units that the first `done` elements of a copy count (R177, R274). -/
def Copy.units (c : Copy) (done unit : Nat) : Nat :=
  let addrs := (List.range done).map fun k => (c.dst.addr c.counts k).toNat
  match unit with
  | 0 => 1
  | 1 => distinct (addrs.flatMap fun a => (List.range c.esz).map (a + ·))
  | _ => distinct (addrs.map (· / 32))

/-- Mark an error in a token unless it has one (R274). -/
def Token.fail (t : Token) (code cause index : Nat) : Token :=
  if t.err then t else { t with err := true, code := code, cause := cause, index := BitVec.ofNat 32 index }

/-- A copy of a token completes, with its error's code, cause and index if it has one (R274). -/
def Wave.endToken (w : Wave) (t : Nat) (err : Option (Nat × Nat × Nat)) : Wave :=
  { w with tokens := w.tokens.modify t fun t =>
      let t := { t with count := t.count - 1 }
      match err with
      | some (code, cause, index) => t.fail code cause index
      | none => t }

/-- The end of a copy: it counts what it wrote into its cell, marks its token, clears its entries and
drops its handles' users (R274). `err` is the error's code and cause. -/
def State.copyEnd (s : State) (core : Nat) (c : Copy) (done : Nat) (err : Option (Nat × Nat)) : State :=
  let blk := (s.wave c.wave).block
  let l := s.launch (s.block blk).launch
  let s := s.count l.fn l.asid 9 (done * c.esz)
  let unit := ((c.cell.bind fun o => (s.block blk).cell? o).map (·.unit)).getD 0
  let units := if unit == 0 && err.isSome then 0 else c.units done unit
  let r := match c.cell with
    | none => (s, err)
    | some off =>
      match s.countUnits blk off units c.dst.level with
      | some s' =>
        let s' := if (err.map fun (x : Nat × Nat) => x.1) == some 4 then
            (s'.updBlock blk fun x => x.poison (off / 16 * 16) (c.stale.getD 0)).wakeCell blk
              (off / 16 * 16) c.stale
          else s'
        (s', err)
      | none => (s, err.orElse fun _ => some (5, 0))
  let s := r.1
  let fault := r.2.map fun (x : Nat × Nat) => (x.1, x.2, done)
  let s := (s.updWave c.wave fun w => w.endToken c.token fault).input c.wave (.token c.token fault)
  let s := s.updCore core fun k => { k with copies := k.copies.filter (·.idx != c.idx) }
  let drop := fun (s : State) (h : Option Nat) => match h with
    | some h => s.dropUser core h
    | none => s
  drop (drop s c.src.handle) c.dst.handle

/-- A copy completes, stops on an error, or goes on waiting for a translation or a peer (R274). -/
def State.copyComplete (s : State) (core idx : Nat) : State :=
  match (s.core core).copies.find? (·.idx == idx) with
  | none => s
  | some c =>
    match s.copyWalk core { c with park := none } (nestSize c.counts + 1) with
    | .finished s' n => s'.copyEnd core c n none
    | .failed s' n code cause => s'.copyEnd core c n (some (code, cause))
    | .waiting s' c' => s'.updCore core fun k => { k with copies := updAll (·.idx == idx) (fun _ => c') k.copies }

/-- The copies of a set of waves that are in flight on a core. -/
def Core.copiesOf (k : Core) (ws : List Nat) : List Copy := k.copies.filter fun c => ws.contains c.wave

/-- Drain the copies of waves on a core that wait for nothing: each completes or errs (R275, R339). -/
def State.drainCopies (s : State) (core : Nat) (ws : List Nat) : State :=
  ((s.core core).copiesOf ws).foldl (fun s c => s.copyComplete core c.idx) s

/-- Stop the copies of a function that wait for a translation, which a teardown leaves no one to give (R381): each errs.
DESIGN CHOICE, log entry 53. -/
def State.cutCopies (s : State) (fn : Nat) : State :=
  let waits := fun (c : Copy) => c.park.isSome && (s.launch (s.block (s.wave c.wave).block).launch).fn == fn
  (s.cores.flatMap fun k => (k.copies.filter waits).map (k.id, ·)).foldl
    (fun s p => s.copyEnd p.1 p.2 p.2.done (some (2, 0))) s

/-! Stream contexts. -/

/-- Release the fill lock of a stream context, wherever it is, and its use of a handle (R182, R190). -/
def State.unlockFill (s : State) (e k : Nat) : State :=
  let s := match (s.xctx? e k).bind (·.user) with
    | some u => s.dropUser u.1 u.2
    | none => s
  let s := s.updXctx e k fun x => { x with user := none, stale := none, locked := false, written := 0, quota := none }
  { s with cores := s.cores.map fun c =>
      { c with locks := c.locks.filter fun l => !(l.engine == e && l.context == k) } }

/-- Unbind a stream context (R278). -/
def State.unbind (s : State) (e k : Nat) : State :=
  let s := s.unlockFill e k
  { s with
    engines := s.engines.filter fun x => !(x.engine == e && x.k == k)
    faults := s.faults.filter fun f => f.who != .engine e k }

/-- Stop every stream context bound to a launch (R278, R339). -/
def State.stopEngines (s : State) (lid : Nat) : State :=
  (s.engines.filter (·.launch == lid)).foldl (fun s x => s.unbind x.engine x.k) s

/-- Stop the program of a stream context with an engine fault: nothing more is written, the context
stays bound, and an error record names the SSTART's site and the command (R187, R279, R398). R181 ends a binding
at a fault and R279 keeps it until SSTOP or the launch's end; the model takes R279's. DESIGN CHOICE, log entry 68. ADDR
is the address that the command faulted on, where it has one. DEDUCED, log entry 82. -/
def State.engineFault (s : State) (e k code : Nat) (addr : Dword := 0) : State :=
  match s.xctx? e k with
  | none => s
  | some x =>
    let s := s.unlockFill e k
    let s := s.updXctx e k fun y => { y with phase := .faulted code, locked := false }
    let l := s.launch x.launch
    let s := s.record (s.launchRec x.launch
      { kind := 7, unit := 14, loc := e, pc := x.sitePc + (if x.site.slice == .a then 1 else 0),
        eseq := x.seq, info := BitVec.ofNat 32 (code * 4096), addr := addr }) (some x.launch)
    s.trace l.fn l.asid 5 (s.wave x.site.wave).core x.seq x.sitePc (BitVec.ofNat 64 code)

end Sys2Proof.Machine
end

