-- ==== Sys2Proof/Machine/Launches.lean ====
section
/-!
DEFINITION. The ends of waves, blocks, launches and contexts (R28, R33, R58 to R61, R215, R216, R326,
R339, R373) and the count of a core's free resources (R43, R58).
-/

namespace Sys2Proof.Machine

/-! Resources of a core. -/

/-- Wave-registers that a wave holds: 32 for an address slice and c for the compute slice, none once
both streams have ended (R43, R58). -/
def Wave.drawn (w : Wave) : Nat := if w.done then 0 else (if w.decoupled then 32 else 0) + w.vcount

/-- The waves of the blocks resident on a core, with their numbers. -/
def State.residents (s : State) (core : Nat) : List Nat :=
  (List.range s.blocks.length).flatMap fun b =>
    if (s.block b).phase == .resident && (s.block b).core == core then (s.block b).waves else []

/-- Free wave-registers of a core's pool. -/
def State.freeRegs (s : State) (core : Nat) : Nat :=
  Config.poolRegs - ((s.residents core).map fun w => (s.wave w).drawn).foldl (· + ·) 0

/-- Free wave slots of a core; a slot is held until its block retires (R58). -/
def State.freeSlots (s : State) (core : Nat) : Nat := Config.waveSlots - (s.residents core).length

/-- Bytes allocated on a core, by the size that `f` gives of a block. -/
def State.allocated (s : State) (core : Nat) (f : Block → Nat) : Nat :=
  ((s.blocks.filter fun b => b.phase == .resident && b.core == core).map f).foldl (· + ·) 0

/-! Completion records (R326). -/

/-- Read the module's queue-table entry of a queue (R372). -/
def State.queueEntry (s : State) (q : Nat) : List Byte :=
  (List.range 64).map fun k => s.devRead (s.mregs.qtb.toNat + 64 * q + k)

/-- The sums of a chain: SQDROP, NAKS, ERR and launches released and not yet reported (R326). -/
structure Chain where
  sqdrop : Nat := 0
  naks : Nat := 0
  err : Dword := 0
  open' : Nat := 0
  deriving DecidableEq, Repr

def Queue.chainOf (q : Queue) (ring : Nat) : Chain :=
  match q.chainSums.find? fun x => x.1 == ring with
  | some (_, a, b, e, n) => { sqdrop := a, naks := b, err := e, open' := n }
  | none => {}

def Queue.setChain (q : Queue) (ring : Nat) (c : Chain) : Queue :=
  let rest := q.chainSums.filter fun x => x.1 != ring
  { q with chainSums := if c.open' == 0 then rest
                        else (ring, c.sqdrop, c.naks, c.err, c.open') :: rest }

/-- Release the successors of a launch, in index order, ahead of the queue's ring (R61). -/
def State.releaseSuccessors (s : State) (lid : Nat) : State :=
  let l := s.launch lid
  let next := (l.packet.succ.filter (· != 0)).map fun a => (a, l.ringIdx)
  s.updQueue l.queue fun q => { q with chain := next ++ q.chain }

/-- Write the completion records of a queue that can be written, the oldest first, in device or host memory as the
ring's leaf gives it (R322, R326); one whose translation is missing waits for it, in die 0's fault buffer (log
entry 67). A launch's successors go free with its record (R28, R61). A record whose translation forbids the write is
dropped, and the successors go free all the same; the spec does not say what follows. DESIGN CHOICE, log entry 67. -/
def State.sendReports (s : State) (q : Nat) : Nat → State
  | 0 => s
  | n + 1 =>
    let k := s.queue q
    match k.reports with
    | [] => s
    | (va, bs, done) :: t =>
      match s.reach k.fn k.asid { write := true, priv := 2 } va with
      | (.miss, _) =>
        if k.reportWait.isSome then s
        else
          let r := s.parkFault 0 k.fn k.asid va true (.report q)
          r.1.updQueue q fun x => { x with reportWait := r.2 }
      | (.ok pa, p) =>
        let s := (s.writeBytes p pa bs).updQueue q fun x => { x with reports := t }
        (done.elim s s.releaseSuccessors).sendReports q n
      | _ => (done.elim (s.updQueue q fun x => { x with reports := t })
          (s.updQueue q fun x => { x with reports := t }).releaseSuccessors).sendReports q n

/-- Write the completion record of a packet, successors' sums included, and update its chain (R326).
`released` is the number of successors that go free with it, those of the launch `done`; `chained` says that
the packet is itself a successor. -/
def State.completion (s : State) (q ring status code sqdrop naks : Nat) (err : Dword)
    (vtend released : Nat) (chained : Bool) (done : Option Nat := none) : State :=
  let qu := s.queue q
  let old := qu.chainOf ring
  let c : Chain :=
    { sqdrop := old.sqdrop + sqdrop, naks := old.naks + naks,
      err := if old.err == 0 then err else old.err,
      open' := old.open' - (if chained then 1 else 0) + released }
  let rec' := bytesOfNat 1 status ++ bytesOfNat 1 code ++ bytesOfNat 2 (min c.open' 65535) ++
    bytesOfNat 4 c.sqdrop ++ bytesOfNat 4 c.naks ++ [0, 0, 0, 0] ++ bytesOfNat 8 c.err.toNat ++
    bytesOfNat 8 vtend
  let at' := qu.cring.toNat + 32 * (ring % 2 ^ qu.lsz)
  let s := s.updQueue q fun x => { x.setChain ring c with reports := x.reports ++ [(at', rec', done)] }
  s.sendReports q ((s.queue q).reports.length)

/-! Launches. -/

/-- A launch completes (R28): its provisional sectors turn final as one step, its stream contexts stop,
its completion record is written and its successors are released (R61, R216, R278, R326). -/
def State.completeLaunch (s : State) (lid : Nat) : State :=
  let s := s.writeOuts fun c => c.launch == some lid
  let s := (s.launch lid).prov.foldl (fun s k =>
    (s.deliver (((s.block (k.owners.headD 0)).waves).headD 0) true (fun _ => true) k).1) s
  let s := s.updLaunch lid fun x => { x with prov := [], phase := .complete }
  let s := s.stopEngines lid
  let l := s.launch lid
  let n := (l.packet.succ.filter (· != 0)).length
  s.completion l.queue l.ringIdx 0 0 l.sqdrop l.naks l.err (s.context l.fn l.asid).vns n l.chained (some lid)

/-- Without the fault requests of the fragments of a set of waves. -/
def State.dropFrags (s : State) (ws : List Nat) : State :=
  { s with faults := s.faults.filter fun f => match f.who with
      | .frag r => !ws.contains r.wave
      | _ => true }

/-- The fault requests that do not belong to the waves of a block. -/
def State.dropFaults (s : State) (ws : List Nat) : State :=
  { s with faults := s.faults.filter fun f =>
      match f.who with
      | .frag r => !ws.contains r.wave
      | .copy core i => ((s.core core).copies.find? (·.idx == i)).elim true fun c => !ws.contains c.wave
      | _ => true }

/-- The allocations, cells and handles of a block are released (R169, R191). -/
def State.releaseBlock (s : State) (b : Nat) (phase : BlockPhase) : State :=
  let k := s.block b
  let s := s.freeHandles k.core b
  s.updBlock b fun x =>
    { x with phase := phase, scr := [], wbuf := [], abuf := [], cbuf := [], cells := [], recordAt := none }

/-- The launch counts what the waves of a block have discarded from their queues (R159, R326). -/
def State.countDrops (s : State) (b : Nat) : State :=
  let n := ((s.block b).waves.map fun w => (s.wave w).sqdrop).foldl (· + ·) 0
  s.updLaunch (s.block b).launch fun l => { l with sqdrop := l.sqdrop + n }

/-- A block retires when its last wave has (R59, R215): its sectors move to l, its allocations and
handles are freed, and its launch's counter falls; at zero the launch completes (R28). -/
def State.retireBlock (s : State) (b : Nat) : State :=
  let k := s.block b
  let s := k.waves.foldl (fun s w => (s.commit w 3 ((s.wave w).seq) true).1) s
  let s := s.releaseBlock b .retired
  if k.shadow then s
  else
    let s := s.countDrops b
    let s := s.updLaunch k.launch fun l => { l with counter := l.counter - 1 }
    if (s.launch k.launch).counter == 0 && (s.launch k.launch).phase == .running
    then s.completeLaunch k.launch else s

/-- No byte that the block still holds at b or g lies in a span of another block's copy or of a fill, and the
buffers above have room (R210, R231). -/
def State.blockUnlocked (s : State) (b : Nat) : Bool :=
  let k := s.block b
  let s := s.updCore k.core fun c => { c with copies := c.copies.filter fun x => !k.waves.contains x.wave }
  k.waves.all fun w => s.commitRoom w 3 (s.wave w).seq &&
    !(s.movable w 3 (s.wave w).seq).any fun x => x.lockedBytes (s.spansAt (s.wave w).core x)

/-- All waves of the block have retired, no copy of theirs is in flight, and its last commits wait on no lock
(R215, R231); DEDUCED, log entry 21. -/
def State.sweepReady (s : State) (b : Nat) : Bool :=
  let k := s.block b
  k.phase == .resident && !k.waves.isEmpty && (k.waves.all fun w => (s.wave w).retired) &&
    ((s.core k.core).copiesOf k.waves).isEmpty && ((s.launch k.launch).phase != .ending || k.shadow) && s.blockUnlocked b

/-- Retire a block that is ready. -/
def State.sweepBlock (s : State) (b : Nat) : State := if s.sweepReady b then s.retireBlock b else s

/-- Entries of the store queues that are discarded when the address slice has ended (R159). -/
def Wave.sqLeft (w : Wave) : Nat := (w.sq.map fun q => q.entries.length).foldl (· + ·) 0

/-- A wave retires (R33): it commits to block, its latch, its queues and its backing slot go, and it is counted
out; the entries it discarded stay counted with it until its block retires (R159, R324). It does so 128 cycles after both streams have ended, when its stores and loads have come to rest (R215). A block that
waited on a lock goes with any wave of it (R231). -/
def State.retireWave (s : State) (w : Nat) : State :=
  let wv := s.wave w
  match wv.exitedAt with
  | none => s
  | some t =>
    if (s.launch (s.launchOf w)).phase == .ending then s
    else if wv.retired then s.sweepBlock wv.block
    else if s.cycle < t + Config.settle || !wv.pend.isEmpty || !wv.privPend.isEmpty
        || !wv.loads.isEmpty || !s.commitReady w 1 wv.seq then s
    else
      let r := s.commit w 1 wv.seq true
      let s := r.1.updLaunch (s.launchOf w) fun l =>
        { l with backing := if wv.holdsSlot then l.backing.filter (· != wv.backing) else l.backing }
      let s := s.updWave w fun x => { x with
        retired := true, latch := none, holdsSlot := false, cache := [], priv := []
        sqdrop := wv.sqdrop + (if wv.decoupled then wv.sqLeft else 0) }
      s.sweepBlock wv.block

/-! Error ends (R339). -/

/-- Stop a block without save: its buffers' sectors are discarded and its waves are gone; its copies stay (R339, steps 1
and 2). -/
def State.haltBlock (s : State) (b : Nat) : State :=
  let k := s.block b
  let cl := clusterOf k.core
  let s := k.waves.foldl (fun s w => (s.wave w).frags.foldl (fun s f =>
    ((f.hold.map (·.users)).getD []).foldl (fun s h => s.dropUser k.core h) s) s) s
  let g := s.gangOf b
  let s := k.waves.foldl (fun s w => s.updWave w fun x =>
    { x with retired := true, wwb := [], pend := [], privPend := [], loads := [], cache := [], priv := [],
             c := { x.c with frags := [], ended := true, handler := none },
             a := x.a.map fun a => { a with frags := [], ended := true, handler := none } }) s
  let s := s.updCore k.core fun c => { c with bwb := c.bwb.filter (·.group != b) }
  let s := s.updCluster cl fun c => { c with gwb := c.gwb.filter (·.group != g) }
  s.dropFrags k.waves

/-- A stopped block whose copies have drained is gone, and its handles are free (R339, step 4). -/
def State.closeBlock (s : State) (b : Nat) : State :=
  let k := s.block b
  let s := s.dropFaults k.waves
  let s := if k.shadow then s else s.countDrops b
  s.releaseBlock b .ended

/-- Stop a shadow: what its copies move stays in its own allocations, so that none of them waits (R395). -/
def State.endShadow (s : State) (b : Nat) : State :=
  let k := s.block b
  ((s.haltBlock b).drainCopies k.core k.waves).closeBlock b

/-- A screen is abandoned without a record, and counted (R395). -/
def State.abandonScreen (s : State) (id : Nat) : State :=
  match s.maint.screens.find? (·.id == id) with
  | none => s
  | some x =>
    if x.done then s
    else
      let l := s.launch (s.block x.primary).launch
      let s := s.count l.fn l.asid 13 1
      let s := { s with maint := { s.maint with
        screensAbandoned := s.maint.screensAbandoned + 1
        screens := updAll (·.id == id) (fun y => { y with done := true }) s.maint.screens } }
      match x.shadow with
      | none => s
      | some b => match (s.block b).phase with
        | .resident | .saved => s.endShadow b
        | .waiting => s.updBlock b fun k => { k with phase := .ended }
        | _ => s

/-- A wave does something that the screen of its block cannot repeat (R395). -/
def State.unscreen (s : State) (w : Nat) : State :=
  match (s.block (s.wave w).block).screen with
  | some id => s.abandonScreen id
  | none => s

/-- The blocks of a launch that have not come to an end. -/
def State.openBlocks (s : State) (lid : Nat) : List Nat :=
  (List.range s.blocks.length).filter fun b =>
    (s.block b).launch == lid && (s.block b).phase != .retired && (s.block b).phase != .ended

/-- Steps 1 and 2 of an error end (R339): the blocks stop without save and the engines stop. -/
def State.haltLaunch (s : State) (lid : Nat) : State :=
  let s := s.flushEgress (·.launch == lid)
  let s := (s.openBlocks lid).foldl (fun s b => s.haltBlock b) s
  let s := s.stopEngines lid
  s.updLaunch lid fun l => { l with ending := { l.ending with stopped := true } }

/-- Copies of a launch are in flight. -/
def State.copying (s : State) (lid : Nat) : Bool :=
  (s.openBlocks lid).any fun b => !((s.core (s.block b).core).copiesOf (s.block b).waves).isEmpty

/-- Steps 3 to 6 of an error end (R339): the provisional sectors are discarded, the handles are free, and the completion
record carries status 1. -/
def State.closeLaunch (s : State) (lid : Nat) : State :=
  let s := (s.openBlocks lid).foldl (fun s b => s.closeBlock b) s
  let s := { s with lines := s.lines.filter (·.launch != some lid) }
  let report := (s.launch lid).ending.report
  let s := s.updLaunch lid fun l => { l with prov := [], phase := .error, ending := {}, backing := [] }
  let l := s.launch lid
  if report then
    s.completion l.queue l.ringIdx 1 0 l.sqdrop l.naks l.err (s.context l.fn l.asid).vns 0 l.chained
  else s

/-- A context that a CRST recreates is as new once no launch of it is ending any more (R373). -/
def State.recreate (s : State) (fn asid : Nat) : State :=
  if !(s.context fn asid).reborn || s.launches.any (fun l => l.fn == fn && l.asid == asid && l.phase == .ending) then s
  else s.updContext fn asid fun _ => { newContext fn asid with running := false, tstop := s.time }

/-- An error end goes on: the launch stops, and is closed once its copies have drained (R339). -/
def State.windUp (s : State) (lid : Nat) : State :=
  let s := if (s.launch lid).ending.stopped then s else s.haltLaunch lid
  if s.copying lid then s else (s.closeLaunch lid).recreate (s.launch lid).fn (s.launch lid).asid

/-- A launch ends with an error (R339); `report` is false in a teardown, which writes no completion record (R381). A
trap that was to end it has come first, and its record is written. DEDUCED, log entry 53. -/
def State.endLaunch (s : State) (lid : Nat) (report : Bool) : State :=
  let l := s.launch lid
  if l.phase != .running && l.phase != .ending then s
  else
    let s := match l.ending.trap with
      | some (_, _, r, _) => s.record r (some lid)
      | none => s
    (s.updLaunch lid fun l => { l with
      phase := .ending, ending := { l.ending with trap := none, report := l.ending.report && report } }).windUp lid

/-- The record with which the host's end or a teardown closes a launch that runs (R339, R398). -/
def State.endNote (s : State) (lid : Nat) : State :=
  if (s.launch lid).phase != .running then s else s.record (s.launchRec lid { kind := 8 }) (some lid)

/-- A context ends (R339, R381): every launch it holds ends, in a teardown with an error record and no completion
record; it accepts no packet, and its messages and contracts are gone (R352, R354). -/
def State.endContext (s : State) (fn asid : Nat) (report : Bool) : State :=
  let ls := (List.range s.launches.length).filter fun l =>
    (s.launch l).fn == fn && (s.launch l).asid == asid
  let s := ls.foldl (fun s l => (if report then s else s.endNote l).endLaunch l report) s
  let shadows := (List.range s.blocks.length).filter fun b => (s.block b).shadow && ls.contains (s.block b).launch
  let s := shadows.foldl (fun s b => match (s.block b).screen with
    | some id => s.abandonScreen id
    | none => s) s
  s.updContext fn asid fun c =>
    { c with ended := true, aq := List.replicate 4 [], contracts := [] }

/-- A trap ends a launch, or POISON its context (R331, R332, R339). What this does beyond the core waits until the trap
has settled. DEDUCED, log entry 83. -/
def State.trapEnds (s : State) (lid core : Nat) (r : ErrRec) (ctx : Bool) : State :=
  if (s.launch lid).phase != .running then s
  else s.updLaunch lid fun l => { l with phase := .ending, ending := { trap := some (core, s.cycle, r, ctx) } }

/-- A trap that ends a launch has settled and acts beyond its core. -/
def Launch.trapSettled (l : Launch) (now : Nat) : Bool :=
  match l.ending.trap with
  | some (_, t, _) => t + Config.settle ≤ now
  | none => true

/-- An error end goes on as far as it can: with the trap, once it has settled, and as its copies drain. -/
def State.goEnd (s : State) (lid : Nat) : State :=
  let l := s.launch lid
  if l.phase != .ending || !l.trapSettled s.cycle then s
  else match l.ending.trap with
    | some (_, _, _, true) => s.endContext l.fn l.asid true
    | some _ => s.endLaunch lid true
    | none => s.windUp lid

/-- Traps that have ended launches since `t` on a core that is rolled back are undone (R393). -/
def State.undoEnds (s : State) (core t : Nat) : State :=
  let mine := fun (l : Launch) => match l.ending.trap with
    | some (c, u, _) => c == core && t ≤ u
    | none => false
  { s with launches := updAll mine (fun l => { l with phase := .running, ending := {} }) s.launches }

end Sys2Proof.Machine
end

