-- ==== Sys2Proof/Machine/Operands.lean ====
section
/-!
DEFINITION. The issuing fragment and every operand form: which specifiers an instruction may name,
what they read under the element type in force, the queues, and where results go (R42, R46, R66, R67,
R100 to R105, R129 to R132, R415).
-/

namespace Sys2Proof.Machine

/-- The fragment that issues, with its wave and stream at hand; `out` puts them back. -/
structure Ctx where
  s : State
  r : FragRef
  w : Wave
  st : Stream
  f : Frag

/-- The context of a fragment, where it lives. -/
def Ctx.of? (s : State) (r : FragRef) : Option Ctx :=
  match s.waves[r.wave]? with
  | none => none
  | some w =>
    match (w.stream r.slice).frag r.entry with
    | none => none
    | some f => some { s := s, r := r, w := w, st := w.stream r.slice, f := f }

/-- The state with the fragment, its stream and its wave put back. -/
def Ctx.out (c : Ctx) : State :=
  c.s.updWave c.r.wave fun _ => c.w.setStream c.r.slice (c.st.setFrag c.r.entry (some c.f))

/-- Read the context again from a state; the fragment stays as it was where the state lost it. -/
def Ctx.reload (c : Ctx) (s : State) : Ctx :=
  (Ctx.of? s c.r).getD { c with s := s }

/-- Act on the whole state and read the context again. -/
def Ctx.global (c : Ctx) (g : State → State) : Ctx := c.reload (g c.out)

def Ctx.inA (c : Ctx) : Bool := c.r.slice == .a
def Ctx.blockId (c : Ctx) : Nat := c.w.block
def Ctx.block (c : Ctx) : Block := c.s.block c.w.block
def Ctx.launchId (c : Ctx) : Nat := c.block.launch
def Ctx.launch (c : Ctx) : Launch := c.s.launch c.launchId
def Ctx.fn (c : Ctx) : Nat := c.launch.fn
def Ctx.asid (c : Ctx) : Nat := c.launch.asid
def Ctx.context (c : Ctx) : Context := c.s.context c.fn c.asid

/-- Privilege of the code that runs: a handler runs at guest, or host in a launch of the physical
function (R334). -/
def Ctx.priv (c : Ctx) : Nat :=
  if c.st.handler.isSome then (if isVf c.fn then max 1 c.launch.priv else 2) else c.launch.priv

/-! Mode fields (R106). -/

def modeEt (m : ModeBits) : Nat := (m.extractLsb' 0 4).toNat
def modeRm (m : ModeBits) : Nat := (m.extractLsb' 4 3).toNat
def modeGp (m : ModeBits) : Nat := (m.extractLsb' 7 3).toNat
def modeGn (m : ModeBits) : Bool := m.getLsbD 10
def modeFtz (m : ModeBits) : Bool := m.getLsbD 11
def modeSat (m : ModeBits) : Bool := m.getLsbD 12
def modeSc (m : ModeBits) : Nat := (m.extractLsb' 13 3).toNat

def Ctx.mode (c : Ctx) : ModeBits := c.f.ctl.mode
def Ctx.et (c : Ctx) : Nat := modeEt c.mode
def Ctx.ftz (c : Ctx) : Bool := modeFtz c.mode
def Ctx.sat (c : Ctx) : Bool := modeSat c.mode
def Ctx.sc (c : Ctx) : Nat := modeSc c.mode

/-- The rounding mode in force; a reserved code has trapped before it is read (R72). -/
def Ctx.rm (c : Ctx) : Rm :=
  match modeRm c.mode with
  | 1 => .rtz
  | 2 => .rup
  | 3 => .rdn
  | 4 => .rna
  | _ => .rne

/-- The ET code has 64-bit elements (R67). -/
def et64 (et : Nat) : Bool := et == 3 || et == 4 || et == 6
def Ctx.w64 (c : Ctx) : Bool := et64 c.et

/-! Lanes (R31 to R35, R105, R158). -/

/-- Lanes of quads that hold a lane of `m`. -/
def quadsOf (m : Mask) : Mask :=
  maskOf fun l => (List.range 4).any fun k => m.getLsbD (l / 4 * 4 + k)

/-- Live lanes of a stream that have not exited (R158). -/
def Ctx.liveNow (c : Ctx) : Mask := c.w.live &&& ~~~c.st.exited
/-- Lanes that are not absent in the stream's view (R32, R33). -/
def Ctx.present (c : Ctx) : Mask := quadsOf c.liveNow
/-- Lane l is a helper lane (R32, R33). -/
def Ctx.helper (c : Ctx) (l : Nat) : Bool := c.present.getLsbD l && !c.liveNow.getLsbD l

/-- Predicate register i: p0 is all true (R42). -/
def Regs.pred (r : Regs) (i : Nat) : Mask := if i == 0 then BitVec.allOnes 32 else r.p.getD i 0
def Regs.vec (r : Regs) (i : Nat) : Vec := r.v.getD i Vec.zero
def Regs.uni (r : Regs) (i : Nat) : Word := r.s.getD i 0
def Regs.uni64 (r : Regs) (i : Nat) : Dword := pair (r.uni i) (r.uni (i + 1))

/-- The registers an instruction reads: those of its issue while it is held (R207). -/
def Ctx.rd (c : Ctx) : Regs := (c.f.hold.map (·.regs)).getD c.st.regs

/-- The lanes that the guard lets through (R105). -/
def Ctx.guard (c : Ctx) : Mask :=
  let p := c.rd.pred (modeGp c.mode)
  if modeGn c.mode then ~~~p else p

/-- The lanes that take part: active and let through by the guard (R105, R129). -/
def Ctx.part (c : Ctx) : Mask := c.f.mask &&& c.guard

/-- Lanes that take part and are no helpers. -/
def Ctx.partLive (c : Ctx) : Mask := c.part &&& c.liveNow

/-- The guard names a predicate of the stream (R105). -/
def Ctx.guardOk (c : Ctx) : Bool := !(c.inA && 4 ≤ modeGp c.mode)

/-- Every lane of the fragment's mask is a helper lane (R13, R34). DEDUCED, log entry 51. -/
def Ctx.allHelpers (c : Ctx) : Bool := c.f.mask &&& c.liveNow == 0

/-! Specifiers (R100, R101). -/

/-- Vector register n is in the stream's column. -/
def Ctx.vecOk (c : Ctx) (n : Nat) : Bool := if c.inA then n < 32 else n < c.w.vcount
/-- Uniform register n is in the stream's column. -/
def Ctx.uniOk (c : Ctx) (n : Nat) : Bool := if c.inA then n < 32 else n < 64
/-- Predicate n is in the stream's column. -/
def Ctx.predOk (c : Ctx) (n : Nat) : Bool := if c.inA then n < 4 else n < 8

/-- A run of `k` registers from n, n a multiple of `al`, is in the column. -/
def Ctx.vecRun (c : Ctx) (n k al : Nat) : Bool := n % al == 0 && c.vecOk (n + k - 1)
def Ctx.uniRun (c : Ctx) (n k al : Nat) : Bool := n % al == 0 && c.uniOk (n + k - 1)

/-- The integer of a constant specifier (R100). -/
def icVal (n : Fin 24) : Int := if n.val < 16 then n.val else 15 - (n.val : Int)

/-- The value of a floating constant (R100): 0.5, 1, 2, 4 and their negatives. -/
def fcVal (n : Fin 8) : XReal := .fin (n.val ≥ 4) (2 ^ (n.val % 4)) 2

/-- The format of the elements of a floating ET code. -/
def etFmt : Nat → Option Fmt
  | 5 => some f32
  | 6 => some f64
  | 7 => some f16
  | 8 => some bf16
  | _ => none

/-- Element width of an ET code in bits (R67). -/
def etWidth : Nat → Nat
  | 3 => 64
  | 4 => 64
  | 6 => 64
  | 7 => 16
  | 8 => 16
  | 9 => 8
  | 10 => 8
  | 11 => 8
  | 12 => 4
  | _ => 32

/-- Repeat a w-bit element over a 32-bit word. -/
def replicateElem (w x : Nat) : Nat :=
  (List.range (32 / w)).foldl (fun a k => a + x % 2 ^ w * 2 ^ (w * k)) 0

/-- A constant under an element type; none where R102 gives ILLEGAL_OPERAND. A reserved code gives the
constant no value, and the instruction traps later. DEDUCED, log entry 31. -/
def constant (et : Nat) : Spec → Option Dword
  | .ic n =>
    let i := icVal n
    match et with
    | 5 => some (BitVec.ofNat 64 (f32.roundTo .rne (.ofInt i)))
    | 6 => some (BitVec.ofNat 64 (f64.roundTo .rne (.ofInt i)))
    | 7 => some (BitVec.ofNat 64 (replicateElem 16 (f16.roundTo .rne (.ofInt i))))
    | 8 => some (BitVec.ofNat 64 (replicateElem 16 (bf16.roundTo .rne (.ofInt i))))
    | 9 => none
    | 10 => some (BitVec.ofNat 64 (replicateElem 8 (i % 256).toNat))
    | 11 => some (BitVec.ofNat 64 (replicateElem 8 (i % 256).toNat))
    | 12 => some (BitVec.ofNat 64 (replicateElem 4 (i % 16).toNat))
    | 3 => some (BitVec.ofInt 64 i)
    | 4 => some (BitVec.ofInt 64 i)
    | _ => some ((BitVec.ofInt 32 i).setWidth 64)
  | .fc n =>
    let x := fcVal n
    match et with
    | 0 => some (BitVec.ofNat 64 (f32.roundTo .rne x))
    | 5 => some (BitVec.ofNat 64 (f32.roundTo .rne x))
    | 6 => some (BitVec.ofNat 64 (f64.roundTo .rne x))
    | 7 => some (BitVec.ofNat 64 (replicateElem 16 (f16.roundTo .rne x)))
    | 8 => some (BitVec.ofNat 64 (replicateElem 16 (bf16.roundTo .rne x)))
    | 13 => some 0
    | 14 => some 0
    | 15 => some 0
    | _ => none
  | _ => none

/-- A constant in a position that is not read as an element of ET (R415). -/
def rawConstant : Spec → Option Dword
  | .ic n => some (BitVec.ofInt 64 (icVal n))
  | _ => none

/-- How a source position reads: its width, whether a constant follows ET, and the type it then follows
in place of the mode's, as PACK2's binary32 (R150). -/
structure Src where
  spec : Spec
  w64 : Bool := false
  raw : Bool := false
  et : Option Nat := none

/-- The specifier names a per-lane special (R103). -/
def perLane : Spec → Bool
  | .special k => k == 0 || k == 1 || k == 7
  | _ => false

/-- The source specifier may stand in a position, under uniform or lane execution (R100 to R104). -/
def Ctx.srcOk (c : Ctx) (uniform : Bool) (x : Src) : Bool :=
  match x.spec with
  | .v n => !uniform && (if x.w64 then c.vecRun n 2 2 else c.vecOk n)
  | .s n => if x.w64 then c.uniRun n 2 2 else c.uniOk n
  | .lq _ => !uniform && !c.inA && c.w.decoupled
  | .sq _ => !uniform && c.inA && c.w.decoupled
  | .special k => !(uniform && (k == 0 || k == 1 || k == 7))
  | .ic _ => if x.raw then true else (constant (x.et.getD c.et) x.spec).isSome
  | .fc _ => if x.raw then false else (constant (x.et.getD c.et) x.spec).isSome
  | _ => false

/-- The destination specifier may stand in a value position of `k` registers (R100, R101). -/
def Ctx.dstOk (c : Ctx) (d : Spec) (k : Nat) : Bool :=
  match d with
  | .v n => c.vecRun n k (if k == 2 then 2 else 1)
  | .s n => c.uniRun n k (if k == 2 then 2 else 1)
  | .lq _ => c.inA && c.w.decoupled
  | .sq _ => !c.inA && c.w.decoupled
  | _ => false

def isUni : Spec → Bool
  | .s _ => true
  | _ => false
def isVec : Spec → Bool
  | .v _ => true
  | _ => false
def isQueue : Spec → Bool
  | .lq _ => true
  | .sq _ => true
  | .cq => true
  | _ => false

/-- The source is one value for the wave (R104). -/
def isUniform : Spec → Bool
  | .s _ => true
  | .ic _ => true
  | .fc _ => true
  | .special k => !(k == 0 || k == 1 || k == 7)
  | _ => false

/-- The registers that a specifier names over `k` consecutive registers. -/
def specRegs (x : Spec) (k : Nat) : List RegId :=
  match x with
  | .v n => (List.range k).map fun i => .v (n + i)
  | .s n => (List.range k).map fun i => .s (n + i)
  | .p n => [.p n]
  | _ => []

/-- A special in a lane (R103). -/
def Ctx.specialVal (c : Ctx) (k l : Nat) : Word :=
  match k with
  | 0 => BitVec.ofNat 32 l
  | 1 => BitVec.ofNat 32 (l % 4)
  | 2 => BitVec.ofNat 32 c.w.idx
  | 3 => BitVec.ofNat 32 c.block.waves.length
  | 4 => BitVec.ofNat 32 c.block.index
  | 5 => BitVec.ofNat 32 c.block.member
  | 6 => BitVec.ofNat 32 (c.s.logicalCore c.fn c.w.core)
  | _ => if c.helper l then 1 else 0

/-- The value of a source in lane l, queues apart: 32-bit values are zero-extended (R129). DEDUCED, log entry 32. -/
def Ctx.value (c : Ctx) (x : Src) (l : Nat) : Dword :=
  match x.spec with
  | .v n =>
    if x.w64 then pair ((c.rd.vec n).lane l) ((c.rd.vec (n + 1)).lane l)
    else ((c.rd.vec n).lane l).setWidth 64
  | .s n => if x.w64 then c.rd.uni64 n else (c.rd.uni n).setWidth 64
  | .special k => (c.specialVal k l).setWidth 64
  | .ic n => if x.raw then (if x.w64 then BitVec.ofInt 64 (icVal n) else (BitVec.ofInt 32 (icVal n)).setWidth 64)
    else (constant (x.et.getD c.et) (.ic n)).getD 0
  | .fc n => (constant (x.et.getD c.et) (.fc n)).getD 0
  | _ => 0

/-- The value of a uniform 32-bit integer position (R415). -/
def Ctx.uval (c : Ctx) (x : Spec) : Word := (c.value { spec := x, raw := true } 0).setWidth 32
/-- The value of a uniform 64-bit integer position. -/
def Ctx.uval64 (c : Ctx) (x : Spec) : Dword := c.value { spec := x, raw := true, w64 := true } 0

/-- A uniform register, uniform special or integer constant may stand in a 32-bit integer position of a
wave-level instruction (R241, R303, R415). -/
def Ctx.uniSrcOk (c : Ctx) (x : Spec) : Bool := c.srcOk true { spec := x, raw := true }
/-- A uniform register alone. -/
def Ctx.uniRegOk (c : Ctx) (x : Spec) (k al : Nat) : Bool :=
  match x with
  | .s n => c.uniRun n k al
  | _ => false
/-- A uniform register or the constant 0 (R249, R263). -/
def Ctx.uniOrZero (c : Ctx) (x : Spec) : Bool :=
  match x with
  | .s n => c.uniOk n
  | .ic n => n == 0
  | _ => false

/-- A constant specifier (R101). -/
def isConst : Spec → Bool
  | .ic _ => true
  | .fc _ => true
  | _ => false

/-- A constant has no value under a reserved type (R102). -/
def Ctx.constBad (c : Ctx) (x : Spec) : Bool := isConst x && 13 ≤ c.et

/-! Queues (R46 to R51, R159). -/

def qmaxLq : Nat := 16
def qmaxSq : Nat := 8
def qmaxCq : Nat := 4

/-- Entries reserved and not yet dequeued. -/
def Fifo.waiting (q : Fifo) : Nat := q.entries.length - q.taken
/-- The head entry. -/
def Fifo.head? (q : Fifo) : Option QEntry := q.entries[q.taken]?
/-- Dequeue the head; an open region holds it (R335). -/
def Fifo.pop (q : Fifo) (held : Bool) : Fifo :=
  if held then { q with taken := q.taken + 1 } else { q with entries := q.entries.drop 1 }
/-- Reserve the tail entry. -/
def Fifo.push (q : Fifo) (st : QState) (seq : Nat := 0) : Fifo :=
  { q with entries := q.entries ++ [{ id := q.next, st := st, seq := seq }], next := q.next + 1 }
/-- Fill an entry. -/
def Fifo.fill (q : Fifo) (id : Nat) (st : QState) : Fifo :=
  { q with entries := updAll (·.id == id) (fun e => { e with st := st }) q.entries }

/-- The queue that a specifier names. -/
def Wave.fifo (w : Wave) : Spec → Fifo
  | .lq n => w.lq.getD n {}
  | .sq n => w.sq.getD n {}
  | _ => w.cq
def Wave.setFifo (w : Wave) (x : Spec) (q : Fifo) : Wave :=
  match x with
  | .lq n => { w with lq := w.lq.set n q }
  | .sq n => { w with sq := w.sq.set n q }
  | _ => { w with cq := q }

/-- The code of a trap class (R331). -/
def TrapClass.code : TrapClass → Nat
  | .illegalOp => 1
  | .illegalOperand => 2
  | .illegalMode => 3
  | .priv => 4
  | .lookahead => 5
  | .loopDepth => 6
  | .stackLimit => 7
  | .align => 8
  | .protection => 9
  | .xlate => 10
  | .queuePoison => 11
  | .rangeLocked => 12
  | .copyBounds => 13
  | .handleStale => 14
  | .peerNak => 15
  | .barrierClobber => 16
  | .barrierMismatch => 17
  | .growImpossible => 18
  | .growDeadlock => 19
  | .poison => 20
  | .timer => 21
  | .swTrap => 22
  | .bkpt => 23
  | .watch => 24

/-- What a dequeue comes to. -/
inductive Pop
  | got (c : Ctx) (v : Vec)
  /-- The head is not filled: the stream stalls. -/
  | stall
  | trap (t : Trap)
  /-- A marked entry: uncorrectable data is consumed (R51, R335). -/
  | marked (c : Ctx) (k : Option SecKey)

/-- Dequeue the head of a queue (R46, R50, R51, R159). -/
def Ctx.pop (c : Ctx) (x : Spec) : Pop :=
  let q := c.w.fifo x
  let held := c.st.region.isSome
  match q.head? with
  | none =>
    if (c.w.stream (otherSlice c.r.slice)).ended then .trap { cls := .illegalOperand } else .stall
  | some e =>
    -- an entry the other stream reserved inside its region breaks that region (R335)
    let brk := fun (w : Wave) =>
      let o := w.stream (otherSlice c.r.slice)
      let k := match x with | .lq n => n.val | .sq n => 4 + n.val | _ => 6
      match o.region with
      | some g => if g.tails.getD k 0 ≤ e.id
          then w.setStream (otherSlice c.r.slice) { o with region := some { g with broken := true } } else w
      | none => w
    let c' := { c with w := brk (c.w.setFifo x (q.pop held)), st := { c.st with fence := max c.st.fence e.seq } }
    match e.st with
    | .unfilled => .stall
    | .filled v => .got c' v
    | .poisoned cls cause lane addr pc =>
      -- the handler's dequeue discards the entry (R50); what it reads is free
      if c.st.handler.isSome then
        .got c' (Vec.build fun l => Config.poisonData c.s.cycle c.r.wave l)
      else
        .trap { cls := .queuePoison, cause := if cls == .protection then cause else 0, lane := lane
                info := if cls == .align then 8 else if cls == .protection then 9 else BitVec.ofNat 32 cls.code
                addr := addr, loadPc := pc }
    | .marked k => .marked c' k

/-- What reserving entries comes to. -/
inductive Reserve
  | ok (c : Ctx) (ids : List Nat)
  | stall
  /-- The consumer has ended: the entries are discarded (R159). -/
  | discarded (c : Ctx)

/-- Reserve `n` entries at the tail of a queue (R46, R47, R159). DEDUCED, log entry 30. -/
def Ctx.reserve (c : Ctx) (x : Spec) (n : Nat) : Reserve :=
  let q := c.w.fifo x
  let gone := (c.w.stream (otherSlice c.r.slice)).ended
  let room := match x with
    | .lq _ => q.waiting < c.w.slip && q.entries.length + n ≤ qmaxLq
    | .sq _ => q.entries.length + n ≤ qmaxSq
    | _ => q.entries.length + n ≤ qmaxCq
  if gone then
    (match x with
     | .sq _ => .discarded { c with w := { c.w with sqdrop := c.w.sqdrop + n } }
     | _ => .discarded c)
  else if !room then .stall
  else
    let ids := (List.range n).map (q.next + ·)
    let q' := (List.range n).foldl (fun q _ => q.push .unfilled c.w.seq) q
    .ok { c with w := c.w.setFifo x q' } ids

/-- Fill reserved entries with words. -/
def Ctx.fillAll (c : Ctx) (x : Spec) : List Nat → List Vec → Ctx
  | id :: ids, v :: vs =>
    Ctx.fillAll { c with w := c.w.setFifo x ((c.w.fifo x).fill id (.filled v)) } x ids vs
  | _, _ => c

/-! Reading every source of an instruction, queues included, in the order a, b, x (R46). -/

/-- Values of the sources as functions of the lane, or why they cannot be read. -/
inductive Reads
  | ok (c : Ctx) (vals : List (Nat → Dword))
  | stall
  | trap (t : Trap)
  | marked (c : Ctx) (k : Option SecKey)

/-- Read the sources in order; a 64-bit source from a queue takes two entries, low word first (R242).
DEDUCED, log entry 10. -/
def Ctx.readAll (c : Ctx) : List Src → Reads
  | [] => .ok c []
  | x :: t =>
    if isQueue x.spec then
      match c.pop x.spec with
      | .stall => .stall
      | .trap t => .trap t
      | .marked c k => .marked c k
      | .got c lo =>
        if x.w64 then
          match c.pop x.spec with
          | .stall => .stall
          | .trap t => .trap t
          | .marked c k => .marked c k
          | .got c hi =>
            match c.readAll t with
            | .ok c vs => .ok c ((fun l => pair (lo.lane l) (hi.lane l)) :: vs)
            | r => r
        else
          match c.readAll t with
          | .ok c vs => .ok c ((fun l => (lo.lane l).setWidth 64) :: vs)
          | r => r
    else
      let v := c.value x
      match c.readAll t with
      | .ok c vs => .ok c (v :: vs)
      | r => r

/-! Writing results. -/

def Regs.setVec (r : Regs) (n : Nat) (v : Vec) : Regs := { r with v := r.v.set n v }
def Regs.setUni (r : Regs) (n : Nat) (v : Word) : Regs := { r with s := r.s.set n v }
/-- Write a predicate; p0 discards (R42). -/
def Regs.setPred (r : Regs) (n : Nat) (m : Mask) : Regs :=
  if n == 0 then r else { r with p := r.p.set n m }

/-- A vector with the lanes of a mask replaced. -/
def Vec.merge (v : Vec) (m : Mask) (f : Nat → Word) : Vec :=
  Vec.build fun l => if m.getLsbD l then f l else v.lane l

def Ctx.setRegs (c : Ctx) (g : Regs → Regs) : Ctx := { c with st := { c.st with regs := g c.st.regs } }
def Ctx.setUni (c : Ctx) (n : Nat) (v : Word) : Ctx := c.setRegs (·.setUni n v)
def Ctx.setUni64 (c : Ctx) (n : Nat) (v : Dword) : Ctx :=
  (c.setUni n (loWord v)).setUni (n + 1) (hiWord v)
def Ctx.setVec (c : Ctx) (n : Nat) (m : Mask) (f : Nat → Word) : Ctx :=
  c.setRegs fun r => r.setVec n (Vec.merge (r.vec n) m f)
/-- Write a uniform register that a specifier names. -/
def Ctx.setSpec (c : Ctx) (x : Spec) (v : Word) : Ctx :=
  match x with
  | .s n => c.setUni n v
  | _ => c
def Ctx.setSpec64 (c : Ctx) (x : Spec) (v : Dword) : Ctx :=
  match x with
  | .s n => c.setUni64 n v
  | _ => c

/-- What writing a destination comes to. -/
inductive Write
  | ok (c : Ctx)
  | stall

/-- Write a result to its destination (R46, R104, R105): once to a uniform register; in the lanes that
take part to a vector register; to a queue, zero in the lanes that do not. -/
def Ctx.writeDst (c : Ctx) (d : Spec) (w64 : Bool) (f : Nat → Dword) : Write :=
  match d with
  | .s n => .ok (if w64 then c.setUni64 n (f 0) else c.setUni n (loWord (f 0)))
  | .v n =>
    if w64 then .ok ((c.setVec n c.part fun l => loWord (f l)).setVec (n + 1) c.part fun l => hiWord (f l))
    else .ok (c.setVec n c.part fun l => loWord (f l))
  | x =>
    let lane := fun (g : Nat → Word) => Vec.build fun l => if c.part.getLsbD l then g l else 0
    match c.reserve x (if w64 then 2 else 1) with
    | .stall => .stall
    | .discarded c => .ok c
    | .ok c ids => .ok (c.fillAll x ids
        (if w64 then [lane fun l => loWord (f l), lane fun l => hiWord (f l)] else [lane fun l => loWord (f l)]))

end Sys2Proof.Machine
end

