-- ==== Sys2Proof/Machine/Ops.lean ====
section
/-!
DEFINITION. What happens around every instruction: the order of its checks (R119), lookahead (R110 to
R112), counting and loop passes (R108, R114, R115), fragments ending and fusing (R39, R40), taking a
trap (R332) and returning from one (R333), and the restart of an idempotent region (R335).
-/

namespace Sys2Proof.Machine

/-- What the execution of an instruction comes to. -/
inductive Act
  /-- It completes in sequence; `w` is the lookahead window it opens. -/
  | next (c : Ctx) (w : Option Window)
  /-- It completes by a taken transfer. -/
  | jump (c : Ctx) (target : Dword)
  /-- It traps, with no other effect. -/
  | trap (c : Ctx) (t : Trap)
  /-- It is not executed; its fragment waits at it. -/
  | park (c : Ctx) (p : Park)
  /-- It has issued and is held for its settle window. -/
  | hold (c : Ctx) (h : Hold)
  /-- It has issued and is held, and waits at once (R51). -/
  | holdPark (c : Ctx) (h : Hold) (p : Park)
  /-- It consumes uncorrectable data, of a sector where one is known (R335, R397). -/
  | consume (c : Ctx) (k : Option SecKey := none)
  /-- It has settled everything itself. -/
  | raw (s : State)

/-- A trap of a class alone. -/
def Ctx.fail (c : Ctx) (k : TrapClass) : Act := .trap c { cls := k }
/-- PROTECTION with a cause. -/
def Ctx.protect (c : Ctx) (cause : Nat) : Act := .trap c { cls := .protection, cause := cause }

/-! Counting and sequence. -/

/-- One instruction counted against every open window (R110). -/
def countWindows (ws : List Window) : List Window :=
  (ws.map fun w => { w with left := w.left - 1 }).filter fun w => w.left != 0

/-- One instruction counted against a PMODE count; at zero the restore copy returns (R108). -/
def Ctl.counted (k : Ctl) : Ctl :=
  if k.count == 0 then k
  else if k.count == 1 then { k with count := 0, mode := k.restore }
  else { k with count := k.count - 1 }

/-- An instruction completes: it counts once under R108 and R110. -/
def Frag.counted (f : Frag) : Frag :=
  { f with ctl := f.ctl.counted, windows := countWindows f.windows }

/-- The pass end of R114 at the last body address: the loops that stay and the next PC. -/
def endPass (pc : Dword) : List Loop → List Loop × Dword
  | [] => ([], pc + 4)
  | l :: t =>
    if l.last != pc then (l :: t, pc + 4)
    else if 1 < l.left.toNat then ({ l with left := l.left - 1 } :: t, l.first)
    else endPass pc t

/-- Completion in sequence: the next PC, a loop pass ending where one does (R114). -/
def Frag.advance (f : Frag) : Frag :=
  let r := endPass f.pc f.ctl.loops
  { f with pc := r.2, ctl := { f.ctl with loops := r.1 } }

/-- The body of a loop holds an address (R115). -/
def Loop.holds (l : Loop) (a : Dword) : Bool := l.first ≤ a && a ≤ l.last

/-- The loops that a transfer to `target` does not leave (R41, R115). -/
def leaveLoops (target : Dword) (ls : List Loop) : List Loop := ls.filter (·.holds target)

/-- A taken transfer: every loop whose body it leaves ends (R115). -/
def Frag.transfer (f : Frag) (target : Dword) : Frag :=
  { f with pc := target, ctl := { f.ctl with loops := leaveLoops target f.ctl.loops } }

/-- Open a window unless 15 were open at issue (R112). -/
def openWindow (open' : Nat) (w : Option Window) (ws : List Window) : List Window :=
  match w with
  | none => ws
  | some x => if x.left == 0 || 15 ≤ open' then ws else ws ++ [x]

/-- The window that a format M instruction with lookahead `la` opens over its protected set (R110). -/
def Ctx.window (c : Ctx) (la : BitVec 4) (regs : List RegId) : Option Window :=
  some { pc := c.f.pc, left := la.toNat, regs := regs }

/-- The fragment is at its next instruction: not parked, not held, ready from the next cycle. -/
def Frag.fresh (f : Frag) (now : Nat) : Frag :=
  { f with park := none, hold := none, ready := now + 1 }

/-! Fragments that end and fuse (R39, R40). -/

/-- A record is the table record of a split. -/
def StackRec.isTable (id : Nat) : StackRec → Bool
  | .table _ i _ => i == id
  | _ => false

/-- The 15 windows with the most instructions left (R112); among equals the earlier in the list, which R112 leaves open.
DESIGN CHOICE, log entry 33. -/
def keepWindows (ws : List Window) : List Window :=
  if ws.length ≤ 15 then ws else (sortBy (fun a b => b.left ≤ a.left) ws).take 15

/-- Fuse the fragments of a split once every one of them has parked at its JOIN or ended (R39, R40);
`now` is the cycle. -/
def Stream.fuse (st : Stream) (id now : Nat) : Stream :=
  let members := st.live.filter fun x => x.2.stack.any (·.isTable id)
  let parked := members.filter fun x => x.2.park == some (.join id)
  if parked.length != members.length then st
  else
    match (parked.find? fun x => match x.2.stack.head? with
        | some (.table _ _ fall) => fall
        | _ => false).orElse (fun _ => parked.head?) with
    | none => st
    | some (e, f) =>
      let mask := parked.foldl (fun m x => m ||| x.2.mask) 0
      let ws := keepWindows (parked.flatMap fun x => x.2.windows)
      let f := ({ f with mask := mask, windows := ws, stack := f.stack.drop 1 }).advance.fresh now
      let st := parked.foldl (fun st x => st.setFrag x.1 none) st
      st.setFrag e (some f)

/-- What becomes of a fragment with no live lane left, by its reconvergence stack: it turns to the else
side of a masked record, or ends (R40). `present` are the lanes not absent, `live` the live ones;
the answer names the split that its end may fuse. DEDUCED, log entry 38. -/
def settleStack (st : Stream) (e : Nat) (present live : Mask) (now : Nat) (f : Frag) :
    List StackRec → Option Frag × Option Nat
  | [] => (none, none)
  | .trivial _ :: t => settleStack st e present live now f t
  | .call _ :: t => settleStack st e present live now f t
  | .table j id fall :: t =>
    let others := st.live.any fun x => x.1 != e && x.2.stack.any (·.isTable id)
    if others then (none, some id)
    else settleStack st e present live now { f with pc := j, stack := .table j id fall :: t } t
  | .masked j done fm wm resume saved :: t =>
    let other := fm &&& present
    if !done && other != 0 then
      (some ({ f with pc := resume, mask := other, ctl := saved.counted,
                      windows := countWindows f.windows,
                      stack := .masked j true fm wm resume saved :: t }.fresh now), none)
    else
      -- an else side with no lane left ends at once
      let f := if done then f else { f with ctl := saved.counted, windows := countWindows f.windows }
      let m := wm &&& present
      if m &&& live == 0 then settleStack st e present live now f t
      else (some ((({ f with pc := j, mask := m, stack := t }).counted.advance).fresh now), none)

/-- Lanes not absent in a stream's view of its wave (R33, R158). -/
def Wave.presentIn (w : Wave) (sl : Slice) : Mask := quadsOf (w.live &&& ~~~(w.stream sl).exited)

/-- End a fragment that has no live lane, or whose mask is empty (R40). A handler's fragment first puts
its hidden set back; DEDUCED, log entry 22. -/
def endFrag (w : Wave) (sl : Slice) (now : Nat) (e : Nat) : Wave :=
  let st := w.stream sl
  match st.frag e with
  | none => w
  | some f =>
    let h := match st.handler with
      | some h => if h.entry == e then some h else none
      | none => none
    let st := match h with
      | none => st
      | some h => { st with
          handler := none, fp := h.fp
          regs := { st.regs with s := (List.range 8).foldl (fun s k => s.set (16 + k) (h.regs.getD k 0)) st.regs.s } }
    let f := match h with
      | none => f
      | some h => { f with ctl := h.ctl, stack := h.stack, windows := [] }
    let live := w.live &&& ~~~st.exited
    let r := settleStack st e (quadsOf live) live now f f.stack
    let st := st.setFrag e r.1
    let st := match r.2 with
      | some id => st.fuse id now
      | none => st
    w.setStream sl st

/-- Absent lanes leave every mask, and a fragment whose mask empties ends (R40). -/
def dropAbsent (w : Wave) (sl : Slice) (now : Nat) : Wave :=
  let p := w.presentIn sl
  let w := w.setStream sl ((w.stream sl).mapFrags fun f => { f with mask := f.mask &&& p })
  (List.range 8).foldl (fun w e =>
    match (w.stream sl).frag e with
    | some f => if f.mask == 0 then endFrag w sl now e else w
    | none => w) w

/-- A stream ends when no fragment of it holds a live lane; when both have, the wave leaves the
machine after its default commit (R158, R215). -/
def closeStream (w : Wave) (sl : Slice) (now : Nat) : Wave :=
  let st := w.stream sl
  if w.live &&& ~~~st.exited != 0 then w
  else
    let w := w.setStream sl { st with ended := true, frags := st.frags.map fun _ => none, handler := none }
    if w.done && w.exitedAt.isNone then { w with exitedAt := some now } else w

/-! Taking a trap and returning (R332, R333). -/

/-- TVEC of the context. -/
def Ctx.tvec (c : Ctx) : Dword := pair c.context.tvecLo c.context.tvecHi

/-- The die of a physical address: fast tier, then capacity tier (R17, R165). -/
def dieOfPa (a : Nat) : Nat :=
  if a < 0x4000000000 then a / 0x100000000 / 12 % 4 else (a - 0x4000000000) / 0x2000000000 / 2 % 4

/-- Unit and LOC of the array that holds a sector (R396, R398). -/
def State.unitOf (s : State) (k : SecKey) : ErrSite :=
  let at' := fun (b : Nat) => locOfCore (s.block b).core 0
  match k.place with
  | .scr b => { unit := 4, loc := at' b }
  | .typed b .w => { unit := 5, loc := at' b }
  | .typed b .a => { unit := 6, loc := at' b }
  | .typed b .c => { unit := 7, loc := at' b }
  | .dev => { unit := if 32 * k.idx < 0x4000000000 then 12 else 13, loc := dieOfPa (32 * k.idx) }
  | _ => { unit := 0 }

/-- Where a poisoned sector's error is known to stand: its own, or the array that the sector lies in. -/
def State.siteOf (s : State) (k : SecKey) : ErrSite :=
  ((s.maint.sites.find? (·.1 == k)).map (·.2)).getD (s.unitOf k)

/-- Name the poisoned sector in a record (R398). -/
def ErrRec.atSite (r : ErrRec) (s : State) : Option SecKey → ErrRec
  | none => r
  | some k =>
    let x := s.siteOf k
    { r with unit := x.unit, loc := x.loc, bank := x.bank, col := x.col, row := x.row
             addr := BitVec.ofNat 64 (32 * k.idx) }

/-- The ESEQ of the issue of what the fragment executes: a held instruction's is that of its own issue (R402). -/
def Ctx.eseq (c : Ctx) : Word := (c.f.hold.map (·.eseq)).getD c.w.eseq

/-- The error record of a trap that ends a launch, or of consumed poison (R331, R398). -/
def Ctx.trapRec (c : Ctx) (kind : Nat) (t : Trap) : ErrRec :=
  let r : ErrRec :=
    { kind := kind, loc := locOfCore c.w.core (c.w.slot / 8),
      pc := c.f.pc + (if c.inA then 1 else 0), eseq := t.eseq.getD c.eseq,
      info := BitVec.ofNat 32 (t.cls.code + 256 * (t.cause % 16)), addr := t.addr }
  r.atSite c.s t.site

/-- The trap record in s16 to s23 (R332). The lowest clamp entry that an access has hit (R195) has no field in it and is
reported nowhere. DEDUCED, log entry 75. -/
def Ctx.trapRegs (c : Ctx) (t : Trap) : List Word :=
  let s18 := t.cls.code + 256 * (t.cause % 16) + 4096 * (t.lane % 32) + (if c.inA then 131072 else 0)
  let tail := if t.cls == .queuePoison then [loWord t.loadPc, hiWord t.loadPc] else [c.w.eseq, t.mask]
  [loWord c.f.pc, hiWord c.f.pc, BitVec.ofNat 32 s18, t.info, loWord t.addr, hiWord t.addr] ++ tail

/-- Put eight words into s16 to s23. -/
def Regs.setTrap (r : Regs) (ws : List Word) : Regs :=
  { r with s := (List.range 8).foldl (fun s k => s.set (16 + k) (ws.getD k 0)) r.s }

/-- A trap into the handler waits: a long-latency instruction of the stream has not completed, a load in flight
or one that another fragment holds, or the other stream is in its handler (R112, R332). -/
def Ctx.trapWaits (c : Ctx) : Bool :=
  c.tvec != 0 && c.st.handler.isNone &&
    (c.w.loads.any (·.slice == c.r.slice) || (c.st.live.any fun x => x.1 != c.r.entry && x.2.underway) ||
      (c.w.stream (otherSlice c.r.slice)).handler.isSome)

/-- The trace record of a trap (R403): a watch names the watched address, any other its class. DEDUCED, log entry 48. -/
def Ctx.traced (c : Ctx) (t : Trap) : Ctx :=
  let x := if t.cls == .watch then (3, t.addr) else (4, BitVec.ofNat 64 t.cls.code)
  { c with s := c.s.trace c.fn c.asid x.1 c.w.core c.w.eseq c.f.pc x.2 }

/-- A trap ends the launch with an error record, or the context (R331, R332, R339); in a shadow it ends the shadow alone,
and its screen is abandoned (R395). DEDUCED, log entry 83. -/
def Ctx.endBy (c : Ctx) (kind : Nat) (t : Trap) : State :=
  match c.block.shadow, c.block.screen with
  | true, some id => c.out.abandonScreen id
  | _, _ =>
    (c.traced t).out.trapEnds c.launchId c.w.core (c.s.launchRec c.launchId (c.trapRec kind t)) (t.cls == .poison)

/-- Take a trap in the issuing stream (R332). The fragment's PC is EPC. With TVEC zero, or in a handler,
the launch ends; POISON ends the context (R331, R339). While long-latency instructions of the stream are
under way the fragment waits at the instruction, which meets its condition again (R112). -/
def Ctx.takeTrap (c : Ctx) (t : Trap) : State :=
  if t.cls == .poison then c.endBy 6 t
  else if c.tvec == 0 || c.st.handler.isSome then c.endBy 8 t
  else if c.trapWaits then
    ({ c with f := { c.f with park := some .stall } }).out
  else
    let hid : Hidden :=
      { entry := c.r.entry, regs := (List.range 8).map fun k => c.st.regs.uni (16 + k), pc := c.f.pc,
        ctl := c.f.ctl, stack := c.f.stack, fp := c.st.fp }
    let st := c.st.mapFrags fun f => { f with windows := [] }
    let st := { st with handler := some hid, regs := st.regs.setTrap (c.trapRegs t) }
    let f := { c.f with
      pc := c.tvec, windows := [], stack := [], watch := none
      ctl := { mode := 0, count := 0, restore := 0, cc := c.f.ctl.cc, loops := [] } }
    ({ c.traced t with st := st, f := f.fresh c.s.cycle } : Ctx).out

/-- Return from the handler (R333): the hidden set comes back, the PC is the EPC in s16:s17. -/
def Ctx.returnTrap (c : Ctx) (h : Hidden) : Ctx :=
  let pc := c.st.regs.uni64 16
  { c with
    st := { c.st with handler := none, fp := h.fp, regs := c.st.regs.setTrap h.regs }
    f := ({ c.f with pc := pc, ctl := h.ctl, stack := h.stack, windows := [] }).fresh c.s.cycle }

/-! Idempotent regions (R335). -/

/-- Queue specifiers in the order of a region's tails. -/
def regionQueues : List Spec := [.lq 0, .lq 1, .lq 2, .lq 3, .sq 0, .sq 1, .cq]

/-- The region's own fragment is the one at hand, or has fused with it and is no more. -/
def Ctx.ownsRegion (c : Ctx) (g : Region) : Bool := c.r.entry == g.entry || (c.st.frag g.entry).isNone

/-- Restart the stream at its region's entry: sector images, recorded state and queue positions come
back, registers stay (R335). The windows of the fragment that is rewound close, and its reconvergence stack stays as it
is; another fragment of the stream that has consumed tries its instruction again. DESIGN CHOICE, log entry 88. -/
def Ctx.restart (c : Ctx) (g : Region) : Ctx :=
  let wwb := g.undo.foldl (fun (l : List Sector) u =>
    let l := l.filter fun k => k.key != u.1
    match u.2 with
    | some k => l ++ [k]
    | none => l) c.w.wwb
  let w := { c.w with
    wwb := wwb, sqdrop := g.sqdrop
    pend := c.w.pend.filter fun p => !(p.slice == c.r.slice && g.opened ≤ p.seq) }
  let w := (List.range 7).foldl (fun (w : Wave) k =>
    let x := regionQueues.getD k .cq
    let q := w.fifo x
    let mine := if c.inA then k < 4 else 4 ≤ k
    let q := if mine then { q with entries := q.entries.filter fun e => e.id < g.tails.getD k 0 }
             else { q with taken := 0 }
    w.setFifo x q) w
  let back := fun (f : Frag) => ({ f with pc := g.entryPc, mask := g.mask, ctl := g.ctl, windows := [] }).fresh c.s.cycle
  let st := match c.ownsRegion g, c.st.frag g.entry with
    | false, some f => c.st.setFrag g.entry (some (back f))
    | _, _ => c.st
  { c with w := w, st := { st with region := none }
           f := if c.ownsRegion g then back c.f else { c.f with windows := [] }.fresh c.s.cycle }

/-- Uncorrectable data is consumed: an open, unbroken region restarts once; otherwise POISON (R335). A
restarted region is entered again by its IDEM, which keeps the mark. `eseq` is a load's, of its issue. -/
def Ctx.consumed (c : Ctx) (k : Option SecKey := none) (eseq : Option Word := none) : State :=
  let t : Trap := { cls := .poison, site := k, eseq := eseq }
  match c.st.region with
  | some g =>
    if g.broken || g.spilled || g.restarted then c.takeTrap t
    else
      let c' := c.restart g
      let again := { g with
        restarted := true, reenter := true, undo := []
        entry := if c.ownsRegion g then c.r.entry else g.entry }
      ({ c' with st := { c'.st with region := some again } } : Ctx).out.record
        (c.s.launchRec c.launchId (c.trapRec 5 t)) (some c.launchId)
  | none => c.takeTrap t

/-! Outcomes. -/

/-- The next state that an act gives. -/
def Act.state : Act → State
  | .next c w =>
    let n := c.f.windows.length
    let f := c.f.counted
    let f := { f with windows := openWindow n w f.windows }
    ({ c with f := f.advance.fresh c.s.cycle }).out
  | .jump c target => ({ c with f := ((c.f.counted).transfer target).fresh c.s.cycle }).out
  | .trap c t => c.takeTrap t
  | .park c p => ({ c with f := { c.f with park := some p } }).out
  | .hold c h =>
    ({ c with f := { c.f with hold := some { h with fence := c.st.fence }, park := none }, w := { c.w with seq := c.w.seq + 1 } }).out
  | .holdPark c h p =>
    ({ c with f := { c.f with hold := some h, park := some p }, w := { c.w with seq := c.w.seq + 1 } }).out
  | .consume c k => c.consumed k
  | .raw s => s

/-- The meaning of a Tchieg instruction: what its body does for the fragment that issues it. DESIGN CHOICE, log entry 29. -/
def issued (s : State) (body : Ctx → Act) : Host.Outcome State Fault Refusal :=
  match s.issuer with
  | .frag r =>
    match Ctx.of? s r with
    | some c => .next (body c).state
    | none => .refused .noIssuer
  | _ => .refused .noIssuer

/-! The checks in the order of R119. -/

/-- What an instruction asks before it performs. -/
structure Need where
  /-- ILLEGAL_OP beyond the decoder's (position 2). -/
  illegal : Bool := false
  /-- Not allowed in an open idempotent region (R314; position 2). -/
  noRegion : Bool := false
  /-- ILLEGAL_OPERAND (position 3). -/
  operand : Bool := false
  /-- It reads the guard (position 3). -/
  guard : Bool := false
  priv : Bool := false
  mode : Bool := false
  /-- Registers it reads or writes, for lookahead and for loads in flight (positions 6 and on). -/
  regs : List RegId := []
  /-- Position 7. -/
  post : Option Trap := none

/-- The registers that a load in flight will write. -/
def Load.writes (l : Load) : List RegId :=
  let k := if l.size ≤ 4 then 1 else l.size / 4
  match l.dest with
  | .vec n => (List.range k).map fun i => .v (n + i)
  | .uni n => (List.range k).map fun i => .s (n + i)
  | _ => []

/-- The registers that a held instruction will write, issued under a mode (R111, R207). -/
def heldWrites (m : ModeBits) (w : Word) : List RegId :=
  let wide := if et64 (modeEt m) then 2 else 1
  match decodeWord w with
  | .ok (.sldd x _ _ _ z) | .ok (.ldx x _ _ z) => specRegs x (if z == 3#2 then 2 else 1)
  | .ok (.ats x _ _ _) | .ok (.atd x _ _ _) | .ok (.ath x _ _ _) | .ok (.atx x _ _ _) => specRegs x wide
  | .ok (.abt x _ _) | .ok (.barv x _ _) | .ok (.barw x _ _ _) | .ok (.aexp x _ _) | .ok (.sstop x _)
  | .ok (.thal x _ _ _) | .ok (.recv x _ _ _ _) | .ok (.msend x _ _) | .ok (.spawn x _ _) => specRegs x 1
  | .ok (.sstart x _ _) | .ok (.sstat x _ _) => specRegs x 2
  | .ok (.cpack x a _ _ _) => specRegs x 8 ++ (match a with
      | .s n => [.s (n + 1)]
      | _ => [])
  | .ok (.crd x _ _ _) => specRegs x 4
  | _ => []

/-- The registers that instructions under way in the stream's other fragments will write (R111). -/
def Ctx.owed (c : Ctx) : List RegId :=
  c.st.live.flatMap fun x =>
    if x.1 == c.r.entry || !x.2.underway then []
    else (x.2.hold.map fun h => heldWrites x.2.ctl.mode h.word).getD []

/-- Some register is in both lists. -/
def meets (a b : List RegId) : Bool := a.any fun x => b.contains x

/-- Run the body of an instruction once its checks have passed (R119); a register that a load of the
stream or another fragment's held instruction still owes makes it wait (R111). A violated window is the oldest of those
that protect the register. DEDUCED and DESIGN CHOICE, log entry 33: where a window is violated whose load is still in flight,
a check that depends on the value of a register (of e in BARV, of a number in PMRD or SYSR) reads the value that the register
holds, the old one, so that with TVEC = 0 the record may name that check's class. -/
def Ctx.gate (c : Ctx) (n : Need) (body : Ctx → Act) : Act :=
  let rs := if n.guard then .p (modeGp c.mode) :: n.regs else n.regs
  -- a value still owed by a load is awaited before any check reads it
  if !(c.f.windows.any fun w => meets w.regs n.regs) &&
      ((c.w.loads.any fun l => l.slice == c.r.slice && meets l.writes rs) || meets c.owed rs) then .park c .stall
  else if n.illegal || (n.noRegion && c.st.region.isSome) then c.fail .illegalOp
  else if n.operand || (n.guard && !c.guardOk) then c.fail .illegalOperand
  else if n.priv then c.fail .priv
  else if n.mode then c.fail .illegalMode
  else match c.f.windows.find? fun w => meets w.regs n.regs with
  | some w => .trap c { cls := .lookahead, addr := w.pc }
  | none =>
    match n.post with
    | some t => .trap c t
    | none => body c

/-- An instruction whose effect outside the wave waits for its settle window (R207, R303): at issue
`start` checks and reads, and afterwards `perform` acts. DEDUCED, log entry 7. -/
def Ctx.heldOp (c : Ctx) (n : Need) (start : Ctx → Except Act Hold) (perform : Ctx → Hold → Act) : Act :=
  match c.f.hold with
  | some h => if h.settled then perform c h else .park c .stall
  | none => c.gate n fun c =>
      match start c with
      | .error a => a
      | .ok h => .hold { c with s := h.users.foldl (fun s k => s.addUser c.w.core k) c.s } h

/-- The hold of an instruction that issues now. -/
def Ctx.newHold (c : Ctx) : Hold :=
  { issued := c.s.cycle, seq := c.w.seq, regs := c.st.regs, eseq := c.w.eseq }

/-- A reserved ET code, or one outside the accepted list (R66, R130). -/
def badEt (et : Nat) (ok : List Nat) : Bool := !ok.contains et
/-- Every assigned ET code. -/
def anyEt : List Nat := [0, 1, 2, 3, 4, 5, 6, 7, 8, 9, 10, 11, 12]
/-- A reserved RM code (R72). -/
def badRm (m : ModeBits) : Bool := 5 ≤ modeRm m
/-- A reserved SC code (R106). -/
def badSc (m : ModeBits) : Bool := 6 ≤ modeSc m

/-! Lane-executed and uniform instructions with one destination (R104, R129). -/

/-- An instruction that computes one result per lane, or once for a uniform destination. -/
structure LaneOp where
  d : Spec
  /-- Registers of the destination. -/
  w64 : Bool := false
  srcs : List Src
  /-- It reads its own destination, last; a queue there is illegal (R132). -/
  readsD : Bool := false
  illegal : Bool := false
  operand : Bool := false
  mode : Bool := false
  /-- Further registers it reads. -/
  extra : List RegId := []
  /-- The destination may not be uniform (R151). -/
  vecOnly : Bool := false
  la : Option (BitVec 4) := none
  f : Ctx → Nat → List Dword → Dword

/-- The checks of a lane operation. -/
def LaneOp.need (o : LaneOp) (c : Ctx) : Need :=
  let uni := isUni o.d
  let k := if o.w64 then 2 else 1
  { illegal := o.illegal
    operand := o.operand || !c.dstOk o.d k || (o.readsD && isQueue o.d) || (o.vecOnly && uni) ||
      !(o.srcs.all fun x => c.srcOk uni x)
    guard := !uni
    mode := o.mode
    regs := specRegs o.d k ++ (o.srcs.flatMap fun x => specRegs x.spec (if x.w64 then 2 else 1)) ++ o.extra }

/-- The protected set of a format M lane operation: x and a at their widths (R110). -/
def LaneOp.protect (o : LaneOp) : List RegId :=
  specRegs o.d (if o.w64 then 2 else 1) ++
    (o.srcs.flatMap fun x => specRegs x.spec (if x.w64 then 2 else 1))

/-- Execute a lane operation. -/
def LaneOp.run (o : LaneOp) (c : Ctx) : Act :=
  c.gate (o.need c) fun c0 =>
    let srcs := if o.readsD then o.srcs ++ [{ spec := o.d, w64 := o.w64, raw := true }] else o.srcs
    match c0.readAll srcs with
    | .stall => .park c0 .queue
    | .trap t => .trap c0 t
    | .marked c1 k => .consume c1 k
    | .ok c1 vals =>
      match c1.writeDst o.d o.w64 fun l => o.f c1 l (vals.map fun v => v l) with
      | .stall => .park c0 .queue
      | .ok c2 => .next c2 (o.la.bind fun k => c0.window k o.protect)

end Sys2Proof.Machine
end

