-- ==== Sys2Proof/Machine/Flags.lean ====
section
/-!
DEFINITION. Elements of the types of R66 and R67, the compare conditions of R141, and the writes of a
condition code and a predicate (R133, R142).
-/

namespace Sys2Proof.Machine

/-! Elements. -/

/-- Elements of a type in one operand (R67). -/
def etCount (et : Nat) : Nat := if etWidth et < 32 then 32 / etWidth et else 1

/-- The type is signed (R66). -/
def etSigned (et : Nat) : Bool := et == 1 || et == 3 || et == 10 || et == 12

/-- The type packs several elements in a word (R67). -/
def etPacked (et : Nat) : Bool := 7 ≤ et && et ≤ 12

/-- Element k of an operand, of width w (R67). -/
def elemOf (w k : Nat) (x : Dword) : Nat := x.toNat / 2 ^ (w * k) % 2 ^ w

/-- An operand made of n elements of width w, element 0 lowest (R67). -/
def ofElems (w n : Nat) (g : Nat → Nat) : Dword :=
  BitVec.ofNat 64 ((List.range n).foldl (fun a k => a + g k % 2 ^ w * 2 ^ (w * k)) 0)

/-- Replace element k of a 32-bit word (R149). -/
def putElem (w k : Nat) (old : Dword) (v : Nat) : Dword :=
  ofElems w (32 / w) fun j => if j == k then v else elemOf w j old

/-- Apply a function of elements to each element of the operands (R67). -/
def perElem (et : Nat) (xs : List Dword) (g : List Nat → Nat) : Dword :=
  ofElems (etWidth et) (etCount et) fun k => g (xs.map (elemOf (etWidth et) k))

/-- The number that a w-bit pattern is, signed or plain (R74). -/
def intOf (sg : Bool) (w x : Nat) : Int := if sg && 2 ^ (w - 1) ≤ x then (x : Int) - 2 ^ w else x

/-- The low w bits of an integer. -/
def wrapInt (w : Nat) (t : Int) : Nat := (t % 2 ^ w).toNat

/-- Least and greatest value of an integer type (R74). -/
def intMin (sg : Bool) (w : Nat) : Int := if sg then -(2 ^ (w - 1)) else 0
def intMax (sg : Bool) (w : Nat) : Int := if sg then 2 ^ (w - 1) - 1 else 2 ^ w - 1

/-- Store an exact result: wrapped, or clamped under SAT (R75). -/
def storeInt (sat sg : Bool) (w : Nat) (t : Int) : Nat :=
  wrapInt w (if sat then clampInt t (intMin sg w) (intMax sg w) else t)

/-! Conditions. -/

/-- The condition of ICMP (R141) on an ordering. -/
def icmpHolds (code : Nat) (o : Ordering) : Bool :=
  match code with
  | 0 => o == .eq
  | 1 => o != .eq
  | 2 => o == .lt
  | 3 => o != .gt
  | 4 => o == .gt
  | _ => o != .lt

/-- The condition of FCMP (R141) on an ordering, absent when either operand is a NaN. -/
def fcmpHolds (code : Nat) (o : Option Ordering) : Bool :=
  match code with
  | 0 => o == some .eq
  | 1 => o != some .eq
  | 2 => o == some .lt
  | 3 => o == some .lt || o == some .eq
  | 4 => o == some .gt
  | 5 => o == some .gt || o == some .eq
  | 6 => o.isSome
  | 7 => o.isNone
  | 8 => o == none || o == some .eq
  | 9 => o == none || o == some .lt
  | 10 => o != some .gt
  | 11 => o == none || o == some .gt
  | _ => o != some .lt

/-- Compare two operands as ICMP does (R141). -/
def icmpValue (et code : Nat) (a b : Dword) : Bool :=
  let w := etWidth et
  icmpHolds code (compare (intOf (etSigned et) w (elemOf w 0 a)) (intOf (etSigned et) w (elemOf w 0 b)))

/-- Compare two operands as FCMP does (R141). -/
def fcmpValue (et code : Nat) (ftz : Bool) (a b : Dword) : Bool :=
  let f := (etFmt et).getD f32
  fcmpHolds code (XReal.cmp (f.read ftz (elemOf f.width 0 a)) (f.read ftz (elemOf f.width 0 b)))

/-! CC and predicates. -/

/-- Write the fragment's condition code (R133). -/
def Ctx.setCc (c : Ctx) (v : Bool) : Ctx := { c with f := { c.f with ctl := { c.f.ctl with cc := v } } }

/-- Write a predicate register in the lanes of a mask; p0 discards (R42). -/
def Ctx.setPred (c : Ctx) (n : Nat) (m v : Mask) : Ctx :=
  c.setRegs fun r => r.setPred n ((r.pred n &&& ~~~m) ||| (v &&& m))

/-- A compare (R141, R142): uniform when both operands are, else in each lane that takes part. -/
def Ctx.compare (c : Ctx) (illegal : Bool) (ok : List Nat) (p : Nat) (a b : Spec)
    (holds : Nat → Dword → Dword → Bool) : Act :=
  let uni := isUniform a && isUniform b
  let et := c.et
  let xa : Src := { spec := a, w64 := et64 et, et := some et }
  let xb : Src := { spec := b, w64 := et64 et, et := some et }
  c.gate
    { illegal := illegal
      operand := !c.predOk p || !c.srcOk uni xa || !c.srcOk uni xb
      guard := !uni
      mode := !ok.contains c.et
      regs := .p p :: specRegs a (if et64 et then 2 else 1) ++ specRegs b (if et64 et then 2 else 1) }
    fun c0 =>
      match c0.readAll [xa, xb] with
      | .stall => .park c0 .queue
      | .trap t => .trap c0 t
      | .marked c1 k => .consume c1 k
      | .ok c1 vals =>
        let va := vals.getD 0 fun _ => 0
        let vb := vals.getD 1 fun _ => 0
        if uni then
          let r := holds et (va 0) (vb 0)
          .next ((c1.setCc r).setPred p c1.f.mask (if r then BitVec.allOnes 32 else 0)) none
        else .next (c1.setPred p c1.part (maskOf fun l => holds et (va l) (vb l))) none

end Sys2Proof.Machine
end

