-- ==== Sys2Proof/Machine/Integer.lean ====
section
/-!
DEFINITION. Moves, integer arithmetic, bits and fields, compares, select, and the address and index
instructions (R136 to R146).
-/

namespace Sys2Proof.Machine

/-! Moves and immediates (R136). -/

/-- LDI: the sign-extended immediate (R136). -/
def execLdi (d : Spec) (i : BitVec 16) (s : State) : Host.Outcome State Fault Refusal :=
  issued s fun c =>
    ({ d := d, srcs := [], f := fun _ _ _ => (i.signExtend 32).setWidth 64 } : LaneOp).run c

/-- LDIH: the upper half replaced (R136). -/
def execLdih (d : Spec) (i : BitVec 16) (s : State) : Host.Outcome State Fault Refusal :=
  issued s fun c =>
    ({ d := d, srcs := [], readsD := true
       f := fun _ _ xs => (i ++ (xs.getD 0 0).setWidth 16 : Word).setWidth 64 } : LaneOp).run c

/-- A source of the width of the element type, under the type an instruction accepts. -/
def typed (et : Nat) (x : Spec) : Src := { spec := x, w64 := et64 et, et := some et }
/-- A 32-bit integer source that is not read as an element (R415). -/
def count32 (x : Spec) : Src := { spec := x, raw := true }

/-- MOV: bits unchanged (R136). -/
def execMov (d a : Spec) (s : State) : Host.Outcome State Fault Refusal :=
  issued s fun c =>
    let et := c.et
    ({ d := d, w64 := et64 et, srcs := [typed et a], mode := badEt c.et anyEt
       f := fun _ _ xs => xs.getD 0 0 } : LaneOp).run c

/-! Integer arithmetic (R137). -/

/-- The types of the short integer instructions (R137). -/
def intEts : List Nat := [0, 1, 2, 3, 4, 10, 11, 12]

/-- A short integer instruction: `t` gives an element's exact result from the signedness, the width and
the element values, the destination's last; `sat` says that R75 may clamp it (R137). -/
def intOp (d : Spec) (srcs : List Spec) (readsD sat : Bool) (t : Bool → Nat → List Int → Int) (c : Ctx) :
    Act :=
  let et := c.et
  let sg := etSigned et
  let w := etWidth et
  ({ d := d, w64 := et64 et, srcs := srcs.map (typed et), readsD := readsD, mode := badEt c.et intEts
     f := fun c _ xs => perElem et xs fun es =>
       storeInt (sat && c.sat) sg w (t sg w (es.map (intOf sg w))) } : LaneOp).run c

/-- IADD (R137). -/
def execIadd (d a b : Spec) (s : State) : Host.Outcome State Fault Refusal :=
  issued s (intOp d [a, b] false true fun _ _ xs => xs.getD 0 0 + xs.getD 1 0)
/-- ISUB (R137). -/
def execIsub (d a b : Spec) (s : State) : Host.Outcome State Fault Refusal :=
  issued s (intOp d [a, b] false true fun _ _ xs => xs.getD 0 0 - xs.getD 1 0)
/-- IMUL (R137). -/
def execImul (d a b : Spec) (s : State) : Host.Outcome State Fault Refusal :=
  issued s (intOp d [a, b] false true fun _ _ xs => xs.getD 0 0 * xs.getD 1 0)
/-- IMULH: the high half of the product (R137). -/
def execImulh (d a b : Spec) (s : State) : Host.Outcome State Fault Refusal :=
  issued s (intOp d [a, b] false false fun _ w xs => (xs.getD 0 0 * xs.getD 1 0).fdiv (2 ^ w))
/-- IMAD (R137). -/
def execImad (d a b : Spec) (s : State) : Host.Outcome State Fault Refusal :=
  issued s (intOp d [a, b] true true fun _ _ xs => xs.getD 0 0 * xs.getD 1 0 + xs.getD 2 0)
/-- IMIN (R137). -/
def execImin (d a b : Spec) (s : State) : Host.Outcome State Fault Refusal :=
  issued s (intOp d [a, b] false false fun _ _ xs => min (xs.getD 0 0) (xs.getD 1 0))
/-- IMAX (R137). -/
def execImax (d a b : Spec) (s : State) : Host.Outcome State Fault Refusal :=
  issued s (intOp d [a, b] false false fun _ _ xs => max (xs.getD 0 0) (xs.getD 1 0))
/-- IABS (R137). -/
def execIabs (d a : Spec) (s : State) : Host.Outcome State Fault Refusal :=
  issued s (intOp d [a] false true fun _ _ xs => ((xs.getD 0 0).natAbs : Int))
/-- INEG (R137). -/
def execIneg (d a : Spec) (s : State) : Host.Outcome State Fault Refusal :=
  issued s (intOp d [a] false true fun _ _ xs => -xs.getD 0 0)

/-- The types of IDIV and IREM (R138). -/
def divEts : List Nat := [0, 1, 2, 3, 4]

/-- Quotient and remainder with the corners of R76, before storing. -/
def divide (sg : Bool) (w : Nat) (x y : Int) : Int × Int :=
  if y == 0 then (if sg then -1 else 2 ^ w - 1, x) else (x.tdiv y, x.tmod y)

/-- IDIV and IREM (R138): x is the dividend and the destination. -/
def divOp (x a : Spec) (la : BitVec 4) (pick : Int × Int → Int) (c : Ctx) : Act :=
  let et := c.et
  let sg := etSigned et
  let w := etWidth et
  ({ d := x, w64 := et64 et, srcs := [typed et a], readsD := true, mode := badEt c.et divEts, la := some la
     f := fun c _ xs => perElem et xs fun es =>
       storeInt c.sat sg w (pick (divide sg w (intOf sg w (es.getD 1 0)) (intOf sg w (es.getD 0 0)))) } :
    LaneOp).run c

/-- IDIV (R138, R76). -/
def execIdiv (x a : Spec) (la : BitVec 4) (s : State) : Host.Outcome State Fault Refusal :=
  issued s (divOp x a la (·.1))
/-- IREM (R138, R76). -/
def execIrem (x a : Spec) (la : BitVec 4) (s : State) : Host.Outcome State Fault Refusal :=
  issued s (divOp x a la (·.2))

/-! Bits, shifts and fields (R139, R140). -/

/-- The width of the bit instructions (R139). -/
def bitWidth (et : Nat) : Nat := if et64 et then 64 else 32

/-- A bit instruction whose value operands are `srcs` and whose count or field operand is `cnt`; `g`
gives the w-bit result from the width, the values and, last, the destination where it is read. -/
def bitOp (d : Spec) (srcs : List Spec) (cnt : Option Spec) (readsD : Bool)
    (g : Nat → Nat → List Nat → Nat) (c : Ctx) : Act :=
  let et := c.et
  let w := bitWidth et
  ({ d := d, w64 := et64 et, srcs := srcs.map (typed et) ++ (cnt.map count32).toList, readsD := readsD
     mode := badEt c.et anyEt
     f := fun _ _ xs => BitVec.ofNat 64 (g et w (xs.map (·.toNat)) % 2 ^ w) } : LaneOp).run c

/-- AND (R139). -/
def execAnd (d a b : Spec) (s : State) : Host.Outcome State Fault Refusal :=
  issued s (bitOp d [a, b] none false fun _ _ xs => Nat.land (xs.getD 0 0) (xs.getD 1 0))
/-- OR (R139). -/
def execOr (d a b : Spec) (s : State) : Host.Outcome State Fault Refusal :=
  issued s (bitOp d [a, b] none false fun _ _ xs => Nat.lor (xs.getD 0 0) (xs.getD 1 0))
/-- XOR (R139). -/
def execXor (d a b : Spec) (s : State) : Host.Outcome State Fault Refusal :=
  issued s (bitOp d [a, b] none false fun _ _ xs => Nat.xor (xs.getD 0 0) (xs.getD 1 0))
/-- ANDN (R139). -/
def execAndn (d a b : Spec) (s : State) : Host.Outcome State Fault Refusal :=
  issued s (bitOp d [a, b] none false fun _ w xs =>
    Nat.land (xs.getD 0 0) (2 ^ w - 1 - xs.getD 1 0 % 2 ^ w))
/-- SHL: 0 from the width on (R139). -/
def execShl (d a b : Spec) (s : State) : Host.Outcome State Fault Refusal :=
  issued s (bitOp d [a] (some b) false fun _ w xs =>
    if w ≤ xs.getD 1 0 then 0 else xs.getD 0 0 * 2 ^ xs.getD 1 0)
/-- SHR: 0 from the width on (R139). -/
def execShr (d a b : Spec) (s : State) : Host.Outcome State Fault Refusal :=
  issued s (bitOp d [a] (some b) false fun _ w xs =>
    if w ≤ xs.getD 1 0 then 0 else xs.getD 0 0 % 2 ^ w / 2 ^ xs.getD 1 0)
/-- SAR: the sign in every bit from the width on (R139). -/
def execSar (d a b : Spec) (s : State) : Host.Outcome State Fault Refusal :=
  issued s (bitOp d [a] (some b) false fun _ w xs =>
    wrapInt w ((intOf true w (xs.getD 0 0 % 2 ^ w)).fdiv (2 ^ min w (xs.getD 1 0))))
/-- ROL by b mod w (R139). -/
def execRol (d a b : Spec) (s : State) : Host.Outcome State Fault Refusal :=
  issued s (bitOp d [a] (some b) false fun _ w xs =>
    let x := xs.getD 0 0 % 2 ^ w
    let k := xs.getD 1 0 % w
    x * 2 ^ k + x / 2 ^ (w - k))

/-- One bits among the low `w` of a number. -/
def popCount (x : Nat) : Nat → Nat
  | 0 => 0
  | k + 1 => popCount x k + (if x.testBit k then 1 else 0)

/-- POPC (R139). -/
def execPopc (d a : Spec) (s : State) : Host.Outcome State Fault Refusal :=
  issued s (bitOp d [a] none false fun _ w xs => popCount (xs.getD 0 0) w)
/-- CLZ (R139). -/
def execClz (d a : Spec) (s : State) : Host.Outcome State Fault Refusal :=
  issued s (bitOp d [a] none false fun _ w xs =>
    ((List.range w).find? fun k => (xs.getD 0 0).testBit (w - 1 - k)).getD w)
/-- CTZ (R139). -/
def execCtz (d a : Spec) (s : State) : Host.Outcome State Fault Refusal :=
  issued s (bitOp d [a] none false fun _ w xs =>
    ((List.range w).find? fun k => (xs.getD 0 0).testBit k).getD w)
/-- BREV (R139). -/
def execBrev (d a : Spec) (s : State) : Host.Outcome State Fault Refusal :=
  issued s (bitOp d [a] none false fun _ w xs =>
    (List.range w).foldl (fun r k => r + (if (xs.getD 0 0).testBit (w - 1 - k) then 2 ^ k else 0)) 0)

/-- Position and length of a field operand (R140). -/
def fieldPos (b : Nat) : Nat := b % 256
def fieldLen (b : Nat) : Nat := b / 256 % 256

/-- BFX: the field, sign-extended under i32 and i64 (R140). -/
def execBfx (d a b : Spec) (s : State) : Host.Outcome State Fault Refusal :=
  issued s (bitOp d [a] (some b) false fun et w xs =>
    let pos := fieldPos (xs.getD 1 0)
    let top := min (pos + fieldLen (xs.getD 1 0)) w - pos
    let f := xs.getD 0 0 % 2 ^ w / 2 ^ pos % 2 ^ top
    if (et == 1 || et == 3) && 0 < top then wrapInt w (intOf true top f) else f)
/-- BFI: the field inserted into d, its other bits kept (R140). -/
def execBfi (d a b : Spec) (s : State) : Host.Outcome State Fault Refusal :=
  issued s (bitOp d [a] (some b) true fun _ w xs =>
    let pos := fieldPos (xs.getD 1 0)
    let top := min (pos + fieldLen (xs.getD 1 0)) w - pos
    let old := xs.getD 2 0
    old - old / 2 ^ pos % 2 ^ top * 2 ^ pos + xs.getD 0 0 % 2 ^ top * 2 ^ pos)

/-! Compare and select (R141 to R143). -/

/-- ICMP (R141, R142). -/
def execIcmp (k : BitVec 4) (p : BitVec 3) (a b : Spec) (s : State) :
    Host.Outcome State Fault Refusal :=
  issued s fun c => c.compare (6 ≤ k.toNat) [0, 1, 2, 3, 4] p.toNat a b fun et x y =>
    icmpValue et k.toNat x y

/-- The 32-bit type beside a 64-bit one, under which SEL's 32-bit test operand takes a constant: R102 does not say which
value a constant has there. DESIGN CHOICE, log entry 81. -/
def narrowEt (et : Nat) : Nat := if et == 3 then 1 else if et == 4 then 2 else if et == 6 then 5 else et

/-- SEL: b where a is nonzero, else d (R143). -/
def execSel (d a b : Spec) (s : State) : Host.Outcome State Fault Refusal :=
  issued s fun c =>
    let et := c.et
    ({ d := d, w64 := et64 et, srcs := [{ spec := a, et := some (narrowEt et) }, typed et b]
       readsD := true, mode := badEt c.et anyEt
       f := fun _ _ xs => if (xs.getD 0 0).setWidth 32 != 0#32 then xs.getD 1 0 else xs.getD 2 0 } :
      LaneOp).run c

/-! Address and tensor index (R144 to R146). -/

/-- AADD: a pair plus a sign-extended 32-bit operand (R144). -/
def execAadd (d a b : Spec) (s : State) : Host.Outcome State Fault Refusal :=
  issued s (({ d := d, w64 := true, srcs := [{ spec := a, w64 := true, raw := true }, count32 b]
               f := fun _ _ xs => xs.getD 0 0 + ((xs.getD 1 0).setWidth 32).signExtend 64 } : LaneOp).run)
/-- AMAD: a · b + d, wrapping, whatever SAT holds (R144). -/
def execAmad (d a b : Spec) (s : State) : Host.Outcome State Fault Refusal :=
  issued s (({ d := d, srcs := [count32 a, count32 b], readsD := true
               f := fun _ _ xs => ((xs.getD 0 0 * xs.getD 1 0 + xs.getD 2 0).setWidth 32).setWidth 64 } :
              LaneOp).run)

/-- The coordinates that a shape entry gives of a linear index, lowest first (R146). -/
def Shape.coords (e : Shape) (x : Nat) : List Nat :=
  let r := (List.range (e.ndim - 1)).foldl (fun (acc : Nat × List Nat) i =>
    let sh := (32 + (e.sh.getD i 0).toNat) % 64
    let q := acc.1 * (e.m.getD i 0).toNat / 2 ^ sh
    let r := (((acc.1 : Int) - q * (e.e.getD i 0).toNat) % 2 ^ 32).toNat
    (q % 2 ^ 32, acc.2 ++ [r])) (x, [])
  r.2 ++ [r.1]

/-- A pending SHLD of this stream names shape entry n (R145). -/
def Ctx.shapePending (c : Ctx) (n : Nat) : Bool :=
  c.w.loads.any fun l => l.slice == c.r.slice && l.entry == c.r.entry && l.dest == .shape n

/-- TIDX (R146). -/
def execTidx (d a : Spec) (n : BitVec 4) (s : State) : Host.Outcome State Fault Refusal :=
  issued s fun c =>
    if c.shapePending n.toNat then .park c .stall else
    let e := c.context.shapes.getD n.toNat {}
    let uni := isUni d
    let run := match d with
      | .v k => c.vecRun k (max 1 e.ndim) 1
      | .s k => c.uniRun k (max 1 e.ndim) 1
      | _ => false
    c.gate
      { operand := !run || e.ndim == 0 || !c.srcOk uni (count32 a)
        guard := !uni
        regs := specRegs d e.ndim ++ specRegs a 1 }
      fun c0 =>
        match c0.readAll [count32 a] with
        | .stall => .park c0 .queue
        | .trap t => .trap c0 t
        | .marked c1 k => .consume c1 k
        | .ok c1 vals =>
          let co := fun (l : Nat) => e.coords (((vals.getD 0 fun _ => 0) l).toNat % 2 ^ 32)
          .next ((List.range e.ndim).foldl (fun c2 i =>
            match d with
            | .v k => c2.setVec (k + i) c1.part fun l => BitVec.ofNat 32 ((co l).getD i 0)
            | .s k => c2.setUni (k + i) (BitVec.ofNat 32 ((co 0).getD i 0))
            | _ => c2) c1) none

end Sys2Proof.Machine
end

