-- ==== Sys2Proof/Machine/FloatOps.lean ====
section
/-!
DEFINITION. Floating-point arithmetic, conversion, packing and dot products (R147 to R150).
-/

namespace Sys2Proof.Machine

/-- The types of the floating instructions (R147, R148). -/
def floatEts : List Nat := [5, 6, 7, 8]
def shortEts : List Nat := [5, 7, 8]
def scalarEts : List Nat := [5, 6]

/-- A floating instruction: `g` gives an element's result from the format and the bits of the elements,
the destination's last; `rm` says that it reads RM (R147). -/
def floatOp (d : Spec) (srcs : List Spec) (readsD rm : Bool) (ok : List Nat) (la : Option (BitVec 4))
    (g : Ctx → Fmt → List Nat → Nat) (c : Ctx) : Act :=
  let et := c.et
  ({ d := d, w64 := et64 et, srcs := srcs.map (typed et), readsD := readsD, la := la
     mode := badEt c.et ok || (rm && badRm c.mode)
     f := fun c _ xs => perElem et xs fun es => g c ((etFmt et).getD f32) es } : LaneOp).run c

/-- Read operand k of a floating element operation under FTZ (R70). -/
def Ctx.fop (c : Ctx) (f : Fmt) (es : List Nat) (k : Nat) : XReal := f.read c.ftz (es.getD k 0)

/-- An operation that rounds its exact result under RM (R147). -/
def roundOp (d : Spec) (srcs : List Spec) (readsD : Bool) (la : Option (BitVec 4))
    (g : Rm → (Nat → XReal) → XReal) (c : Ctx) : Act :=
  floatOp d srcs readsD true floatEts la
    (fun c f es => f.write c.ftz c.rm (g c.rm (c.fop f es))) c

/-- FADD (R147). -/
def execFadd (d a b : Spec) (s : State) : Host.Outcome State Fault Refusal :=
  issued s (roundOp d [a, b] false none fun rm x => (x 0).add rm (x 1))
/-- FSUB (R147). -/
def execFsub (d a b : Spec) (s : State) : Host.Outcome State Fault Refusal :=
  issued s (roundOp d [a, b] false none fun rm x => (x 0).add rm (x 1).neg)
/-- FMUL (R147). -/
def execFmul (d a b : Spec) (s : State) : Host.Outcome State Fault Refusal :=
  issued s (roundOp d [a, b] false none fun _ x => (x 0).mul (x 1))
/-- FFMA: one rounding (R147). -/
def execFfma (d a b : Spec) (s : State) : Host.Outcome State Fault Refusal :=
  issued s (roundOp d [a, b] true none fun rm x => ((x 0).mul (x 1)).add rm (x 2))
/-- FFMS: one rounding (R147). -/
def execFfms (d a b : Spec) (s : State) : Host.Outcome State Fault Refusal :=
  issued s (roundOp d [a, b] true none fun rm x => ((x 0).mul (x 1)).add rm (x 2).neg)
/-- FMIN (R147, R71). -/
def execFmin (d a b : Spec) (s : State) : Host.Outcome State Fault Refusal :=
  issued s (floatOp d [a, b] false false floatEts none fun c f es =>
    f.minMax c.ftz false (es.getD 0 0) (es.getD 1 0))
/-- FMAX (R147, R71). -/
def execFmax (d a b : Spec) (s : State) : Host.Outcome State Fault Refusal :=
  issued s (floatOp d [a, b] false false floatEts none fun c f es =>
    f.minMax c.ftz true (es.getD 0 0) (es.getD 1 0))
/-- FABS (R147). -/
def execFabs (d a : Spec) (s : State) : Host.Outcome State Fault Refusal :=
  issued s (floatOp d [a] false false floatEts none fun c f es =>
    f.write c.ftz .rne (c.fop f es 0).abs)
/-- FNEG (R147). -/
def execFneg (d a : Spec) (s : State) : Host.Outcome State Fault Refusal :=
  issued s (floatOp d [a] false false floatEts none fun c f es =>
    f.write c.ftz .rne (c.fop f es 0).neg)
/-- FCMP (R141, R142). -/
def execFcmp (k : BitVec 4) (p : BitVec 3) (a b : Spec) (s : State) :
    Host.Outcome State Fault Refusal :=
  issued s fun c => c.compare (13 ≤ k.toNat) scalarEts p.toNat a b fun et x y =>
    fcmpValue et k.toNat c.ftz x y
/-- FRND: an integral value in its own format (R147). -/
def execFrnd (d a : Spec) (s : State) : Host.Outcome State Fault Refusal :=
  issued s (roundOp d [a] false none fun rm x => (x 0).toIntegral rm)
/-- FCLS: the class mask, a 32-bit result without FTZ (R147). -/
def execFcls (d a : Spec) (s : State) : Host.Outcome State Fault Refusal :=
  issued s fun c =>
    let et := c.et
    let f := (etFmt et).getD f32
    ({ d := d, srcs := [typed et a], mode := badEt c.et scalarEts
       f := fun _ _ xs => (f.classify (elemOf f.width 0 (xs.getD 0 0))).setWidth 64 } : LaneOp).run c

/-! The long floating instructions (R148). -/

/-- FDIV: x is also the dividend (R148). -/
def execFdiv (x a : Spec) (la : BitVec 4) (s : State) : Host.Outcome State Fault Refusal :=
  issued s (roundOp x [a] true (some la) fun _ v => (v 1).div (v 0))
/-- FRCP (R148). -/
def execFrcp (x a : Spec) (la : BitVec 4) (s : State) : Host.Outcome State Fault Refusal :=
  issued s (roundOp x [a] false (some la) fun _ v => (XReal.fin false 1 1).div (v 0))
/-- FSQRT (R148). -/
def execFsqrt (x a : Spec) (la : BitVec 4) (s : State) : Host.Outcome State Fault Refusal :=
  issued s (roundOp x [a] false (some la) fun _ v => (v 0).sqrt)

/-- A fixed function of R148, which does not read RM; binary64 takes FRSQ only, whose description gives
it the same types as FDIV. -/
def fixedOp (fn : Fixed) (x a : Spec) (la : BitVec 4) (ok : List Nat) (c : Ctx) : Act :=
  floatOp x [a] false false ok (some la) (fun c f es => fn.apply f c.ftz (es.getD 0 0)) c

/-- FRSQ (R148). -/
def execFrsq (x a : Spec) (la : BitVec 4) (s : State) : Host.Outcome State Fault Refusal :=
  issued s (fixedOp .rsq x a la floatEts)
/-- FEXP2 (R148). -/
def execFexp2 (x a : Spec) (la : BitVec 4) (s : State) : Host.Outcome State Fault Refusal :=
  issued s (fixedOp .exp2 x a la shortEts)
/-- FLOG2 (R148). -/
def execFlog2 (x a : Spec) (la : BitVec 4) (s : State) : Host.Outcome State Fault Refusal :=
  issued s (fixedOp .log2 x a la shortEts)
/-- FSIN (R148). -/
def execFsin (x a : Spec) (la : BitVec 4) (s : State) : Host.Outcome State Fault Refusal :=
  issued s (fixedOp .sin x a la shortEts)
/-- FCOS (R148). -/
def execFcos (x a : Spec) (la : BitVec 4) (s : State) : Host.Outcome State Fault Refusal :=
  issued s (fixedOp .cos x a la shortEts)
/-- FTANH (R148). -/
def execFtanh (x a : Spec) (la : BitVec 4) (s : State) : Host.Outcome State Fault Refusal :=
  issued s (fixedOp .tanh x a la shortEts)

/-! Conversion (R149). -/

/-- The value that a conversion carries: an integer, or a real. -/
inductive CvtVal
  | int (x : Int)
  | real (x : XReal)

/-- The element type that a CVT source code stands for, as an ET code and an element width; codes 6, 7
and 10, 11, 13 are the small integers (R149). -/
def cvtSrc (k : Nat) : Nat × Nat :=
  match k with
  | 0 => (1, 32)
  | 1 => (2, 32)
  | 2 => (3, 64)
  | 3 => (4, 64)
  | 4 => (5, 32)
  | 5 => (6, 64)
  | 6 => (1, 16)
  | 7 => (2, 16)
  | 8 => (7, 16)
  | 9 => (8, 16)
  | 10 => (1, 8)
  | 11 => (2, 8)
  | 12 => (9, 8)
  | 13 => (1, 4)
  | 14 => (7, 16)
  | 15 => (8, 16)
  | 16 => (9, 8)
  | 17 => (10, 8)
  | 18 => (11, 8)
  | _ => (12, 4)

/-- The value of a source element (R149). -/
def cvtRead (k : Nat) (ftz : Bool) (x : Nat) : CvtVal :=
  let t := cvtSrc k
  match etFmt t.1 with
  | some f => .real (f.read ftz x)
  | none =>
    if t.1 == 9 then .real (kd8Value (BitVec.ofNat 8 x))
    else .int (intOf (etSigned t.1) t.2 x)

/-- A value stored as an element of a destination type (R149). -/
def cvtWrite (et : Nat) (ftz sat : Bool) (rm : Rm) (v : CvtVal) : Nat :=
  match etFmt et with
  | some f => f.write ftz rm (match v with | .int x => .ofInt x | .real x => x)
  | none =>
    if et == 9 then (kd8Encode sat (match v with | .int x => .ofInt x | .real x => x)).toNat
    else
      let sg := etSigned et
      let w := etWidth et
      match v with
      | .int x => storeInt sat sg w x
      | .real x => wrapInt w (x.toInt rm (intMin sg w) (intMax sg w))

/-- Every type but b32 (R149). -/
def cvtEts : List Nat := [1, 2, 3, 4, 5, 6, 7, 8, 9, 10, 11, 12]

/-- A conversion reads RM: into a binary format, or from floating point into an integer (R72). -/
def cvtReadsRm (et k : Nat) : Bool :=
  (etFmt et).isSome || (et != 9 && ((etFmt (cvtSrc k).1).isSome || (cvtSrc k).1 == 9))

/-- CVT's source at the width of its code; a constant in a 64-bit position under a 32-bit type is an integer (R101, R102). -/
def cvtSource (et k : Nat) (a : Spec) : Src :=
  let wide := k == 2 || k == 3 || k == 5
  { spec := a, w64 := wide, raw := wide && !et64 et && et < 13, et := some et }

/-- CVT (R149). A constant follows the mode's type, and in a 64-bit position under a 32-bit type it is a
sign-extended integer (R101, R102); DESIGN CHOICE (log 73): a floating constant has no value there and
raises ILLEGAL_OPERAND. A constant in a narrower position under a 64-bit type gives the low bits of its 64-bit value, which no
rule states. DESIGN CHOICE, log entry 81. -/
def execCvt (d a : Spec) (e : BitVec 3) (k : BitVec 5) (s : State) : Host.Outcome State Fault Refusal :=
  issued s fun c =>
    let et := c.et
    let k := k.toNat
    let e := e.toNat
    let packed := etPacked et
    let whole := k < 6
    let small := 6 ≤ k && k < 14
    let wide := k == 2 || k == 3 || k == 5
    let src := cvtSource et k a
    let sw := (cvtSrc k).2
    let dw := etWidth et
    let bad := badEt c.et cvtEts
    ({ d := d, w64 := et64 et, srcs := [src], readsD := packed && whole
       illegal := 20 ≤ k || (14 ≤ k && e != 0) || (whole && !packed && e != 0)
       operand := (packed && isQueue d) || (wide && et == 9 && isConst a) ||
         (whole && packed && etCount et ≤ e) || (small && (packed || 32 / sw ≤ e)) ||
         (!bad && 14 ≤ k && (!packed || etCount et != 32 / sw))
       mode := bad || (cvtReadsRm et k && badRm c.mode)
       f := fun c _ xs =>
         let x := xs.getD 0 0
         let conv := fun (y : Nat) => cvtWrite et c.ftz c.sat c.rm (cvtRead k c.ftz y)
         if 14 ≤ k then ofElems dw (etCount et) fun j => conv (elemOf sw j x)
         else
           let r := conv (elemOf sw (if small then e else 0) x)
           if packed then putElem dw e (xs.getD 1 0) r else BitVec.ofNat 64 r } : LaneOp).run c

/-- PACK2: two binary32 values into the elements of a packed type (R150). -/
def execPack2 (d a b : Spec) (s : State) : Host.Outcome State Fault Refusal :=
  issued s fun c =>
    let ok := [7, 8]
    let fmt := (etFmt c.et).getD f16
    ({ d := d, srcs := [{ spec := a, et := some 5 }, { spec := b, et := some 5 }]
       mode := badEt c.et ok || badRm c.mode
       f := fun c _ xs => ofElems 16 2 fun k =>
         fmt.write c.ftz c.rm (f32.read c.ftz (elemOf 32 0 (xs.getD k 0))) } : LaneOp).run c

/-- The types that UNPK accepts (R150). -/
def packedEts : List Nat := [7, 8, 9, 10, 11, 12]

/-- One element widened (R150): to binary32, or to 32 bits by its sign. Under FTZ a bfloat16 subnormal, which R150 has
widen exactly, gives the zero that R70 makes of a subnormal result. DESIGN CHOICE, log entry 81. -/
def widen (et : Nat) (c : Ctx) (x : Nat) : Word :=
  if et == 7 || et == 8 then BitVec.ofNat 32 (f32.write c.ftz .rne (((etFmt et).getD f16).decode x))
  else if et == 9 then BitVec.ofNat 32 (f32.write c.ftz c.rm (kd8Value (BitVec.ofNat 8 x)))
  else BitVec.ofInt 32 (intOf (etSigned et) (etWidth et) x)

/-- UNPK: each element to a register of its own (R150). -/
def execUnpk (d a : Spec) (s : State) : Host.Outcome State Fault Refusal :=
  issued s fun c =>
    let et := c.et
    let n := etCount et
    let uni := isUni d
    let run := match d with
      | .v k => c.vecRun k n 1
      | .s k => c.uniRun k n 1
      | _ => false
    let src := typed et a
    c.gate
      { operand := !run || !c.srcOk uni src
        guard := !uni
        mode := badEt c.et packedEts || (et < 10 && badRm c.mode)
        regs := specRegs d n ++ specRegs a 1 }
      fun c0 =>
        match c0.readAll [src] with
        | .stall => .park c0 .queue
        | .trap t => .trap c0 t
        | .marked c1 k => .consume c1 k
        | .ok c1 vals =>
          let v := vals.getD 0 fun _ => 0
          .next ((List.range n).foldl (fun c2 i =>
            match d with
            | .v k => c2.setVec (k + i) c1.part fun l => widen et c1 (elemOf (etWidth et) i (v l))
            | .s k => c2.setUni (k + i) (widen et c1 (elemOf (etWidth et) i (v 0)))
            | _ => c2) c1) none

/-- The types of DOT4 (R150). -/
def dotEts : List Nat := [9, 10, 11, 12]

/-- The dot product of two packed words added to a 32-bit accumulator (R150, R87, R88). -/
def dotValue (et : Nat) (sat : Bool) (a b acc : Dword) : Word :=
  let w := etWidth et
  let ks := List.range (etCount et)
  if et == 9 then
    accumulate (acc.setWidth 32) (segmentSum (ks.map fun k =>
      (kd8Value (BitVec.ofNat 8 (elemOf w k a))).mul (kd8Value (BitVec.ofNat 8 (elemOf w k b)))))
  else
    let sg := etSigned et
    let t := ks.foldl (fun t k => t + intOf sg w (elemOf w k a) * intOf sg w (elemOf w k b)) 0
    BitVec.ofNat 32 (storeInt sat sg 32 (t + intOf sg 32 (elemOf 32 0 acc)))

/-- DOT4 (R150). -/
def execDot4 (d a b : Spec) (s : State) : Host.Outcome State Fault Refusal :=
  issued s fun c =>
    let et := c.et
    ({ d := d, srcs := [typed et a, typed et b], readsD := true, mode := badEt c.et dotEts
       f := fun c _ xs => (dotValue et c.sat (xs.getD 0 0) (xs.getD 1 0) (xs.getD 2 0)).setWidth 64 } :
      LaneOp).run c

end Sys2Proof.Machine
end

