-- ==== Sys2Proof/Machine/Cross.lean ====
section
/-!
DEFINITION. Cross-lane instructions (R151 to R154): shuffles, quad exchanges, single lanes, votes,
reductions and scans.
-/

namespace Sys2Proof.Machine

/-- Vector register n, or a pair of them, in lane l as another lane reads it: zero where l is absent
(R34, R35). -/
def Ctx.laneOf (c : Ctx) (n : Nat) (w64 : Bool) (l : Nat) : Dword :=
  if !c.present.getLsbD l then 0
  else if w64 then pair ((c.rd.vec n).lane l) ((c.rd.vec (n + 1)).lane l)
  else ((c.rd.vec n).lane l).setWidth 64

/-- The vector register that a specifier names. -/
def vecNum : Spec → Nat
  | .v n => n
  | _ => 0

/-- A shuffle: lane l receives the register of lane `src l (count)` (R151). -/
def shuffle (d a : Spec) (b : Option Spec) (src : Nat → Nat → Nat) (c : Ctx) : Act :=
  let et := c.et
  let w64 := et64 et
  ({ d := d, w64 := w64, srcs := (b.map count32).toList, vecOnly := true
     operand := !isVec a || !c.srcOk false { spec := a, w64 := w64, raw := true } || !isVec d
     mode := badEt c.et anyEt
     extra := specRegs a (if w64 then 2 else 1)
     f := fun c l xs => c.laneOf (vecNum a) w64 (src l ((xs.getD 0 0).toNat % 2 ^ 32)) } : LaneOp).run c

/-- SHFL (R151). -/
def execShfl (d a b : Spec) (s : State) : Host.Outcome State Fault Refusal :=
  issued s (shuffle d a (some b) fun _ n => n % 32)
/-- SHFLX (R151). -/
def execShflx (d a b : Spec) (s : State) : Host.Outcome State Fault Refusal :=
  issued s (shuffle d a (some b) fun l n => Nat.xor l (n % 32))
/-- SHFLU (R151). -/
def execShflu (d a b : Spec) (s : State) : Host.Outcome State Fault Refusal :=
  issued s (shuffle d a (some b) fun l n => if l < n then l else l - n)
/-- SHFLD (R151). -/
def execShfld (d a b : Spec) (s : State) : Host.Outcome State Fault Refusal :=
  issued s (shuffle d a (some b) fun l n => if 31 < l + n then l else l + n)
/-- QSWAPX (R151). -/
def execQswapx (d a : Spec) (s : State) : Host.Outcome State Fault Refusal :=
  issued s (shuffle d a none fun l _ => Nat.xor l 1)
/-- QSWAPY (R151). -/
def execQswapy (d a : Spec) (s : State) : Host.Outcome State Fault Refusal :=
  issued s (shuffle d a none fun l _ => Nat.xor l 2)
/-- QSWAPD (R151). -/
def execQswapd (d a : Spec) (s : State) : Host.Outcome State Fault Refusal :=
  issued s (shuffle d a none fun l _ => Nat.xor l 3)
/-- QBCST (R151). -/
def execQbcst (d a : Spec) (q : BitVec 2) (s : State) : Host.Outcome State Fault Refusal :=
  issued s (shuffle d a none fun l _ => l / 4 * 4 + q.toNat)

/-- RDLANE: one lane's register to a uniform or to every lane (R152). -/
def execRdlane (d a b : Spec) (s : State) : Host.Outcome State Fault Refusal :=
  issued s fun c =>
    ({ d := d, srcs := [], operand := !isVec a || !c.srcOk false (count32 a) || !isUniform b || !c.srcOk true (count32 b)
       extra := specRegs a 1 ++ specRegs b 1
       f := fun c _ _ => c.laneOf (vecNum a) false ((c.uval b).toNat % 32) } : LaneOp).run c

/-- WRLANE: one lane of d, whatever the mask and the guard; an absent lane is not written (R152). A
constant a follows ET (R102): it has no value under a reserved type, and DESIGN CHOICE (log 72): under a
64-bit type its low 32 bits are written. -/
def execWrlane (d a b : Spec) (s : State) : Host.Outcome State Fault Refusal :=
  issued s fun c =>
    let sa : Src := { spec := a, et := some c.et }
    c.gate
      { operand := !isVec d || !c.dstOk d 1 || !isUniform a || !c.srcOk true sa || !isUniform b || !c.srcOk true (count32 b)
        mode := c.constBad a
        regs := specRegs d 1 ++ specRegs a 1 ++ specRegs b 1 }
      fun c =>
        let l := (c.uval b).toNat % 32
        let m : Mask := (1#32 <<< l) &&& c.present
        .next (c.setVec (vecNum d) m fun _ => (c.value sa 0).setWidth 32) none

/-! Votes (R153). -/

/-- The participants of a vote: active, no helper, and through the guard (R153). -/
def Ctx.voters (c : Ctx) : Mask := c.partLive

/-- A predicate register in a predicate position. -/
def Ctx.predSpec (c : Ctx) (x : Spec) : Bool :=
  match x with
  | .p n => c.predOk n
  | _ => false
def predNum : Spec → Nat
  | .p n => n
  | _ => 0

/-- A vote over a predicate: `g` gives the result from the participants that hold it and all of them;
`cc` says that CC takes the result and that p0 may stand for d (R153). -/
def vote (d p : Spec) (cc : Bool) (g : Mask → Mask → Word) (c : Ctx) : Act :=
  c.gate
    { operand := !(c.uniRegOk d 1 1 || (cc && d == .p 0)) || !c.predSpec p
      guard := true
      regs := specRegs d 1 ++ specRegs p 1 }
    fun c =>
      let r := g (c.voters &&& c.rd.pred (predNum p)) c.voters
      let c' := c.setSpec d r
      .next (if cc then c'.setCc (r != 0) else c') none

/-- VANY (R153). -/
def execVany (d p : Spec) (s : State) : Host.Outcome State Fault Refusal :=
  issued s (vote d p true fun have' _ => if have' != 0 then 1 else 0)
/-- VALL: true without participants (R153). -/
def execVall (d p : Spec) (s : State) : Host.Outcome State Fault Refusal :=
  issued s (vote d p true fun have' all => if have' == all then 1 else 0)
/-- VBAL (R153). -/
def execVbal (d p : Spec) (s : State) : Host.Outcome State Fault Refusal :=
  issued s (vote d p false fun have' _ => have')
/-- ACTM: active lanes that are no helpers; the guard is not read (R153). -/
def execActm (d : Spec) (s : State) : Host.Outcome State Fault Refusal :=
  issued s fun c =>
    c.gate { operand := !c.uniRegOk d 1 1, regs := specRegs d 1 } fun c =>
      .next (c.setSpec d (c.f.mask &&& c.liveNow)) none

/-! Reductions and scans (R90 to R93, R154). -/

/-- The types of REDW, SCANW and QRED for an operation: and, or and xor take no floating type (R154). -/
def redEts (op : Nat) : List Nat := if op < 3 then [0, 1, 2, 3, 4, 5, 6] else [0, 1, 2, 3, 4]

/-- One node of a reduction (R90, R154). -/
def redNode (et op : Nat) (ftz sat : Bool) (rm : Rm) (a b : Nat) : Nat :=
  match etFmt et with
  | some f =>
    if op == 0 then f.write ftz rm ((f.read ftz a).add rm (f.read ftz b)) else f.minMax ftz (op == 2) a b
  | none =>
    let w := etWidth et
    let sg := etSigned et
    let x := intOf sg w a
    let y := intOf sg w b
    match op with
    | 0 => storeInt sat sg w (x + y)
    | 1 => wrapInt w (min x y)
    | 2 => wrapInt w (max x y)
    | 3 => Nat.land a b
    | 4 => Nat.lor a b
    | _ => Nat.xor a b

/-- A node with the identity marker: it passes the other input on unchanged (R91). DESIGN CHOICE (log 70):
so the NaN payload of a single floating participant stays in the result, where R69 makes every NaN result
canonical, and so does a subnormal under FTZ, which R70 reads as zero. -/
def redJoin (g : Nat → Nat → Nat) : Option Nat → Option Nat → Option Nat
  | none, y => y
  | x, none => x
  | some x, some y => some (g x y)

/-- The identity result (R91). -/
def redIdentity (et op : Nat) : Nat :=
  let w := etWidth et
  let sg := etSigned et
  match etFmt et with
  | some f => if op == 0 then 0 else f.nan
  | none => match op with
    | 1 => wrapInt w (intMax sg w)
    | 2 => wrapInt w (intMin sg w)
    | 3 => 2 ^ w - 1
    | _ => 0

/-- Combine neighbours: one level of the tree of R90. -/
def redLevel (g : Nat → Nat → Nat) : List (Option Nat) → List (Option Nat)
  | x :: y :: t => redJoin g x y :: redLevel g t
  | l => l

/-- Every level of the tree over 32 inputs, the inputs first (R90). -/
def redTree (g : Nat → Nat → Nat) (xs : List (Option Nat)) : List (List (Option Nat)) :=
  (List.range 5).foldl (fun acc _ => acc ++ [redLevel g (acc.getLastD [])]) [xs]

/-- The inclusive scan value of lane l: the nodes of the one bits of l + 1, the largest first, left to
right (R92). -/
def scanAt (g : Nat → Nat → Nat) (tree : List (List (Option Nat))) (l : Nat) : Option Nat :=
  ([5, 4, 3, 2, 1, 0].foldl (fun (acc : Nat × Option Nat) k =>
    if (l + 1).testBit k then
      (acc.1 + 2 ^ k, redJoin g acc.2 (((tree.getD k []).getD (acc.1 / 2 ^ k) none)))
    else acc) (0, none)).2

/-- The inputs of a wave reduction: a participant's element, else the identity marker (R91). -/
def Ctx.redInputs (c : Ctx) (a : Spec) (w64 : Bool) (w : Nat) : List (Option Nat) :=
  lanes.map fun l =>
    if c.voters.getLsbD l then some (elemOf w 0 (c.laneOf (vecNum a) w64 l)) else none

/-- The checks of REDW, SCANW and QRED (R154). -/
def Ctx.redNeed (c : Ctx) (d a : Spec) (op : Nat) (uni : Bool) : Need :=
  let et := c.et
  let w64 := et64 et
  let k := if w64 then 2 else 1
  { illegal := 6 ≤ op
    operand := !(c.dstOk d k && (isVec d || (uni && isUni d))) || !isVec a ||
      !c.srcOk false { spec := a, w64 := w64, raw := true }
    guard := true
    mode := badEt c.et (redEts op) || ((etFmt et).isSome && badRm c.mode)
    regs := specRegs d k ++ specRegs a k }

/-- Write a per-lane value of one or two words to a vector or uniform destination. -/
def Ctx.putLanes (c : Ctx) (d : Spec) (w64 : Bool) (m : Mask) (g : Nat → Nat) : Ctx :=
  match d with
  | .v n =>
    let c := c.setVec n m fun l => BitVec.ofNat 32 (g l)
    if w64 then c.setVec (n + 1) m fun l => BitVec.ofNat 32 (g l / 2 ^ 32) else c
  | .s n => if w64 then c.setUni64 n (BitVec.ofNat 64 (g 0)) else c.setUni n (BitVec.ofNat 32 (g 0))
  | _ => c

/-- REDW (R154). -/
def execRedw (d a : Spec) (o : BitVec 3) (s : State) : Host.Outcome State Fault Refusal :=
  issued s fun c => c.gate (c.redNeed d a o.toNat true) fun c =>
    let et := c.et
    let g := redNode et o.toNat c.ftz c.sat c.rm
    let tree := redTree g (c.redInputs a (et64 et) (etWidth et))
    let r := ((tree.getLastD []).getD 0 none).getD (redIdentity et o.toNat)
    .next (c.putLanes d (et64 et) c.partLive fun _ => r) none

/-- SCANW (R92, R154). -/
def execScanw (d a : Spec) (e : BitVec 1) (o : BitVec 3) (s : State) : Host.Outcome State Fault Refusal :=
  issued s fun c => c.gate (c.redNeed d a o.toNat false) fun c =>
    let et := c.et
    let g := redNode et o.toNat c.ftz c.sat c.rm
    let tree := redTree g (c.redInputs a (et64 et) (etWidth et))
    let at' := fun (l : Nat) => (scanAt g tree l).getD (redIdentity et o.toNat)
    let v := fun (l : Nat) =>
      if e == 1#1 then (if l == 0 then redIdentity et o.toNat else at' (l - 1)) else at' l
    .next (c.putLanes d (et64 et) c.voters v) none

/-- The input of a lane to a quad reduction (R93): a helper's register, zero where absent, the identity
marker where live and inactive. -/
def Ctx.quadInput (c : Ctx) (a : Spec) (w64 : Bool) (w l : Nat) : Option Nat :=
  if !c.present.getLsbD l then some 0
  else if c.helper l || c.part.getLsbD l then some (elemOf w 0 (c.laneOf (vecNum a) w64 l))
  else none

/-- QRED (R93, R154). -/
def execQred (d a : Spec) (o : BitVec 3) (s : State) : Host.Outcome State Fault Refusal :=
  issued s fun c => c.gate (c.redNeed d a o.toNat false) fun c =>
    let et := c.et
    let g := redNode et o.toNat c.ftz c.sat c.rm
    let x := c.quadInput a (et64 et) (etWidth et)
    let quad := fun (l : Nat) =>
      let b := l / 4 * 4
      (redJoin g (redJoin g (x b) (x (b + 1))) (redJoin g (x (b + 2)) (x (b + 3)))).getD
        (redIdentity et o.toNat)
    .next (c.putLanes d (et64 et) c.part quad) none

end Sys2Proof.Machine
end

