-- ==== Sys2Proof/Machine/Control.lean ====
section
/-!
DEFINITION. Control flow, fragments, loops, the mode register, slice coupling and register growth
(R36 to R41, R46 to R49, R54 to R57, R107 to R115, R155 to R164).
-/

namespace Sys2Proof.Machine

/-! Mode (R107, R108). -/

/-- NOP (R117). -/
def execNop (s : State) : Host.Outcome State Fault Refusal :=
  issued s fun c => c.gate {} fun c => .next c none

/-- MODE: ILLEGAL_OP inside a PMODE window (R107). -/
def execMode (i : BitVec 17) (s : State) : Host.Outcome State Fault Refusal :=
  issued s fun c => c.gate { illegal := c.f.ctl.count != 0 } fun c =>
    .next { c with f := { c.f with ctl := { c.f.ctl with mode := i } } } none

/-- PMODE: n + 1 instructions after it run under the value; it is not counted itself (R108). -/
def execPmode (n : BitVec 4) (i : BitVec 17) (s : State) : Host.Outcome State Fault Refusal :=
  issued s fun c => c.gate { illegal := c.f.ctl.count != 0 } fun c =>
    -- the count starts one higher because completion counts the PMODE as well
    .next { c with f := { c.f with
      ctl := { c.f.ctl with restore := c.f.ctl.mode, mode := i, count := n.toNat + 2 } } } none

/-! Loops (R113 to R115). -/

/-- Start a loop of `count` passes over `len` instructions (R113). -/
def startLoop (count : Ctx → Word) (len : BitVec 8) (need : Need) (c : Ctx) : Act :=
  let n := if len == 0#8 then 256 else len.toNat
  let last := c.f.pc + BitVec.ofNat 64 (4 * n)
  let past := match c.f.ctl.loops with
    | [] => false
    | l :: _ => l.last < last
  c.gate
    { need with
      illegal := past
      post := if c.f.ctl.loops.length == 3 then some { cls := .loopDepth, cause := 0 } else none }
    fun c =>
      let k := count c
      if k == 0 then
        -- the body is skipped: the next PC is the address after it
        .raw ({ c with f := ({ c.f.counted with pc := last + 4 }).fresh c.s.cycle }).out
      else
        let l : Loop := { left := k, first := c.f.pc + 4, last := last }
        let f := c.f.counted
        .raw ({ c with f := ({ f with
          pc := c.f.pc + 4, ctl := { f.ctl with loops := l :: f.ctl.loops } }).fresh c.s.cycle }).out

/-- The source of LOOP: a uniform register or a constant 0 to 15 (R113). -/
def Ctx.loopSrcOk (c : Ctx) (x : Spec) : Bool :=
  match x with
  | .s n => c.uniOk n
  | .ic n => n.val < 16
  | _ => false

/-- LOOP (R113). -/
def execLoop (x : Spec) (len : BitVec 8) (s : State) : Host.Outcome State Fault Refusal :=
  issued s fun c => startLoop (fun c => c.uval x) len
    { operand := !c.loopSrcOk x, regs := specRegs x 1 } c

/-- LOOPI (R113). -/
def execLoopi (n : BitVec 16) (len : BitVec 8) (s : State) : Host.Outcome State Fault Refusal :=
  issued s (startLoop (fun _ => n.setWidth 32) len {})

/-- LBRK: the innermost loop ends and execution goes on after it (R115). -/
def execLbrk (s : State) : Host.Outcome State Fault Refusal :=
  issued s fun c => c.gate { illegal := c.f.ctl.loops.isEmpty } fun c =>
    match c.f.ctl.loops with
    | [] => c.fail .illegalOp
    | l :: t =>
      let f := c.f.counted
      .raw ({ c with f := ({ f with pc := l.last + 4, ctl := { f.ctl with loops := t } }).fresh c.s.cycle }).out

/-! Branches and calls (R155, R157). -/

/-- The target of a signed word offset (R98). -/
def Ctx.target (c : Ctx) {n : Nat} (off : BitVec n) : Dword := c.f.pc + 4 * off.signExtend 64

/-- BRA (R155). -/
def execBra (i : BitVec 24) (s : State) : Host.Outcome State Fault Refusal :=
  issued s fun c => c.gate {} fun c => .jump c (c.target i)
/-- BCC: taken when CC equals the sense (R155). -/
def execBcc (t : BitVec 1) (i : BitVec 23) (s : State) : Host.Outcome State Fault Refusal :=
  issued s fun c => c.gate {} fun c =>
    if c.f.ctl.cc == (t == 1#1) then .jump c (c.target i) else .next c none

/-- A branch on a predicate within the fragment's mask (R37, R155). -/
def maskBranch (zero : Bool) (p : BitVec 3) (i : BitVec 21) (c : Ctx) : Act :=
  c.gate { operand := !c.predOk p.toNat, regs := [.p p.toNat] } fun c =>
    if (c.rd.pred p.toNat &&& c.f.mask == 0) == zero then .jump c (c.target i) else .next c none

/-- BMZ (R155). -/
def execBmz (p : BitVec 3) (i : BitVec 21) (s : State) : Host.Outcome State Fault Refusal :=
  issued s (maskBranch true p i)
/-- BMNZ (R155). -/
def execBmnz (p : BitVec 3) (i : BitVec 21) (s : State) : Host.Outcome State Fault Refusal :=
  issued s (maskBranch false p i)

/-- CALL: a call record, then the transfer; a seventeenth record is LOOP_DEPTH (R157). -/
def execCall (i : BitVec 24) (s : State) : Host.Outcome State Fault Refusal :=
  issued s fun c =>
    c.gate { post := if 16 ≤ c.f.stack.length then some { cls := .loopDepth, cause := 2 } else none } fun c =>
      .jump { c with f := { c.f with stack := .call (c.f.pc + 4) :: c.f.stack } } (c.target i)

/-- RET: to the address of the call record on top (R157). -/
def execRet (s : State) : Host.Outcome State Fault Refusal :=
  issued s fun c =>
    let top := match c.f.stack with
      | .call ret :: t => some (ret, t)
      | _ => none
    c.gate { illegal := top.isNone } fun c =>
      match top with
      | some (ret, t) => .jump { c with f := { c.f with stack := t } } ret
      | none => c.fail .illegalOp

/-- JMPR: to the address in a uniform pair; ALIGN where it is no multiple of 4 (R99, R157). -/
def execJmpr (a : Spec) (s : State) : Host.Outcome State Fault Refusal :=
  issued s fun c => c.gate { operand := !c.uniRegOk a 2 2, regs := specRegs a 2 } fun c =>
    let t := c.uval64 a
    if t.toNat % 4 != 0 then .trap c { cls := .align, addr := t } else .jump c t

/-! Splits and joins (R38 to R40, R156). -/

/-- The first free entry of a split table. -/
def Stream.freeEntry (st : Stream) : Option Nat :=
  (List.range 8).find? fun e => (st.frag e).isNone

/-- SPLIT (R38, R156): counted before any copy is taken. -/
def execSplit (p : BitVec 3) (t : BitVec 10) (j : BitVec 11) (s : State) :
    Host.Outcome State Fault Refusal :=
  issued s fun c =>
    c.gate
      { illegal := j == 0#11
        operand := !c.predOk p.toNat
        regs := [.p p.toNat]
        post := if 16 ≤ c.f.stack.length then some { cls := .loopDepth, cause := 1 } else none }
      fun c =>
        let now := c.s.cycle
        let taken := c.target t
        let join := c.f.pc + 4 * j.setWidth 64
        let tm := c.f.mask &&& c.rd.pred p.toNat
        let fm := c.f.mask &&& ~~~c.rd.pred p.toNat
        let f := c.f.counted
        let push := fun (x : Frag) (r : StackRec) => { x with stack := r :: x.stack }
        if tm == 0 then
          .raw ({ c with f := ((push { f with mask := fm } (.trivial join)).advance).fresh now }).out
        else if fm == 0 then
          .raw ({ c with f := ((push { f with mask := tm } (.trivial join)).transfer taken).fresh now }).out
        -- an open region takes the masked form (R314)
        else match (if c.st.region.isSome then none else c.st.freeEntry) with
          | some e =>
            let id := c.st.nextSplit
            let new := ((push { f with mask := tm } (.table join id false)).transfer taken).fresh now
            let old := ((push { f with mask := fm } (.table join id true)).advance).fresh now
            .raw ({ c with
              st := { c.st.setFrag e (some new) with nextSplit := id + 1 }
              f := old }).out
          | none =>
            let r : StackRec := .masked join false fm c.f.mask (c.f.pc + 4) f.ctl
            .raw ({ c with f := ((push { f with mask := tm } r).transfer taken).fresh now }).out

/-- JOIN (R39). -/
def execJoin (s : State) : Host.Outcome State Fault Refusal :=
  issued s fun c => c.gate {} fun c =>
    let now := c.s.cycle
    match c.f.stack with
    | .trivial j :: t => .next (if j == c.f.pc then { c with f := { c.f with stack := t } } else c) none
    | .masked j done fm wm resume saved :: t =>
      if j != c.f.pc then .next c none
      else if done then
        .next { c with f := { c.f with stack := t, mask := wm &&& c.w.presentIn c.r.slice } } none
      else
        -- no lane of F is left, where every one has exited with its quad: the else side ends at once
        let m := fm &&& c.w.presentIn c.r.slice
        if m == 0 then
          .next { c with f := { c.f with stack := t, mask := wm &&& c.w.presentIn c.r.slice,
                                         ctl := saved } } none
        else
          .raw ({ c with f := ({ c.f with
            pc := resume, mask := m, ctl := saved.counted, windows := countWindows c.f.windows
            stack := .masked j true fm wm resume saved :: t }).fresh now }).out
    | .table j id fall :: t =>
      if j != c.f.pc then .next c none
      else
        let f := { c.f.counted with park := some (.join id), stack := .table j id fall :: t }
        let st := (c.st.setFrag c.r.entry (some f)).fuse id now
        .raw (c.s.updWave c.r.wave fun _ => c.w.setStream c.r.slice st)
    | _ => .next c none

/-- EXIT: the live lanes that take part exit; a fragment that then holds no live lane ends (R158, R40). -/
def execExit (s : State) : Host.Outcome State Fault Refusal :=
  issued s fun c => c.gate { guard := true, noRegion := true } fun c =>
    let now := c.s.cycle
    let f := c.f.counted
    let st := { c.st with exited := c.st.exited ||| c.partLive }
    let left := c.f.mask &&& (c.w.live &&& ~~~st.exited)
    let put := fun (f : Frag) => c.w.setStream c.r.slice (st.setFrag c.r.entry (some f))
    let w :=
      if left == 0 then endFrag (put f) c.r.slice now c.r.entry
      else put (f.advance.fresh now)
    let w := closeStream (dropAbsent w c.r.slice now) c.r.slice now
    .raw (c.s.updWave c.r.wave fun _ => w)

/-! Slice coupling (R46 to R49, R159 to R164). -/

/-- A uniform word as a queue entry. -/
def cqWord (w : Word) : Vec := Vec.build fun _ => w

/-- CQPUT (R161); NOP in a coupled launch (R163). Of a constant under a 64-bit type it puts the low 32 bits.
DESIGN CHOICE, log entry 72. -/
def execCqput (a : Spec) (s : State) : Host.Outcome State Fault Refusal :=
  issued s fun c =>
    if !c.w.decoupled then c.gate {} fun c => .next c none
    else
      let src : Src := { spec := a, et := some c.et }
      let isPred := match a with
        | .p _ => true
        | _ => false
      c.gate
        { operand := c.inA || !(if isPred then c.predSpec a else c.srcOk true src)
          guard := isPred
          mode := !isPred && c.constBad a
          regs := specRegs a 1 }
        fun c =>
          let v : Word := if isPred then c.rd.pred (predNum a) &&& c.part
            else (c.value src 0).setWidth 32
          match c.reserve .cq 1 with
          | .stall => .park c .queue
          | .discarded c => .next c none
          | .ok c ids => .next (c.fillAll .cq ids [cqWord v]) none

/-- CQGET (R162); NOP in a coupled launch (R163). -/
def execCqget (d : Spec) (s : State) : Host.Outcome State Fault Refusal :=
  issued s fun c =>
    if !c.w.decoupled then c.gate {} fun c => .next c none
    else
      let dest := match d with
        | .s n => c.uniOk n
        | .p n => c.predOk n
        | _ => false
      c.gate { operand := !c.inA || !dest, regs := specRegs d 1 } fun c =>
        match c.pop .cq with
        | .stall => .park c .cqget
        | .trap t => .trap c t
        | .marked c k => .consume c k
        | .got c v =>
          match d with
          | .p n => .next (c.setPred n c.f.mask (v.lane 0)) none
          | x => .next (c.setSpec x (v.lane 0)) none

/-- The fragment of a stream that is parked at MEET. -/
def Stream.atMeet (st : Stream) : Option (Nat × Frag) := st.live.find? fun x => x.2.park == some .meet

/-- MEET (R48); NOP in a coupled launch (R163). -/
def execMeet (s : State) : Host.Outcome State Fault Refusal :=
  issued s fun c =>
    if !c.w.decoupled then c.gate {} fun c => .next c none
    else
      c.gate { illegal := 1 < c.st.live.length } fun c =>
        let o := otherSlice c.r.slice
        let ost := c.w.stream o
        let mine := { c with st := { c.st with meets := c.st.meets + 1, fence := c.w.seq } }
        if ost.ended then .next mine none
        else match ost.atMeet with
          | some (e, f) =>
            let f' := (f.counted.advance).fresh c.s.cycle
            let ost := { ost.setFrag e (some f') with meets := ost.meets + 1, fence := c.w.seq }
            .next { mine with w := c.w.setStream o ost } none
          | none => .park c .meet

/-! Growing and shrinking registers (R54 to R57). -/

/-- The count of GROW and SHRINK is legal (R54). -/
def growCount (n : Nat) : Bool := n != 0 && n % 8 == 0 && n ≤ 120

/-- A stream has ended or every fragment of it waits in GROW (R57). A stream of which one fragment waits in GROW
and another elsewhere is not parked in GROW. DESIGN CHOICE, log entry 69. -/
def Stream.inGrow (st : Stream) : Bool :=
  st.ended || (!st.live.isEmpty && st.live.all fun x => match x.2.park with
    | some (.grow _) => true
    | _ => false)

/-- A wave has a fragment waiting in GROW. -/
def Wave.growing (w : Wave) : Bool := w.frags.any fun f => match f.park with
  | some (.grow _) => true
  | _ => false

/-- The other waves resident on the core that have not retired. -/
def Ctx.fellows (c : Ctx) : List Wave :=
  ((c.s.residents c.w.core).filter (· != c.r.wave)).map c.s.wave |>.filter fun w => !w.retired

/-- The counts that fragments of the wave wait for in GROW. -/
def Wave.wants (w : Wave) : List Nat := w.frags.filterMap fun f => match f.park with
  | some (.grow n) => some n
  | _ => none

/-- GROW's grant, wait or deadlock once its checks have passed (R55, R57): there is no deadlock while the oldest
wait can be granted. -/
def Ctx.grow (c : Ctx) (n : Nat) : Act :=
  let others := c.fellows
  let older := others.any fun w => w.growing && w.age < c.w.age
  if n ≤ c.s.freeRegs c.w.core && !older then
    .next { c with
      w := { c.w with vcount := c.w.vcount + n }
      st := { c.st with regs := { c.st.regs with v := c.st.regs.v ++ List.replicate n Vec.zero } } } none
  else
    let dead := others.all (fun w => (w.stream .a).inGrow && w.c.inGrow) &&
      (c.w.stream (otherSlice c.r.slice)).ended &&
      (c.st.live.all fun x => x.1 == c.r.entry || (match x.2.park with | some (.grow _) => true | _ => false))
    let first := others.any fun w => (w.wants.any fun k => decide (k ≤ c.s.freeRegs c.w.core)) &&
      !(others.any fun v => v.growing && v.age < w.age)
    if dead && !first && others.all (fun w => w.age < c.w.age) then .trap c { cls := .growDeadlock }
    else .park c (.grow n)

/-- Registers of the other resident waves above their own minimum (R56). -/
def Ctx.spare (c : Ctx) : Nat :=
  ((c.fellows.filter fun w => !w.done).map fun w => w.vcount - w.vmin).foldl (· + ·) 0

/-- GROW (R54 to R57). -/
def execGrow (n : BitVec 16) (s : State) : Host.Outcome State Fault Refusal :=
  issued s fun c =>
    let k := n.toNat
    c.gate
      { illegal := c.inA
        operand := !growCount k
        post := if c.w.vmax < c.w.vcount + k || c.s.freeRegs c.w.core + c.spare < k
          then some { cls := .growImpossible } else none }
      fun c => c.grow k

/-- SHRINK (R54): it waits for pending writes to the registers it gives up. -/
def execShrink (n : BitVec 16) (s : State) : Host.Outcome State Fault Refusal :=
  issued s fun c =>
    let k := n.toNat
    let keep := c.w.vcount - k
    c.gate
      { illegal := c.inA
        operand := !growCount k || c.w.vcount < c.w.vmin + k
        regs := (List.range k).map fun i => .v (keep + i) }
      fun c =>
        let core := c.w.core
        let now := c.s.cycle
        .next { c with
          s := c.s.updCore core fun x => { x with shrunk := x.shrunk ++ [(k, now)] }
          w := { c.w with vcount := keep }
          st := { c.st with regs := { c.st.regs with v := c.st.regs.v.take keep } } } none

end Sys2Proof.Machine
end

