-- ==== Sys2Proof/Machine/Access.lean ====
section
/-!
DEFINITION. Lane accesses (R166 to R172, R241 to R260): addresses, the checks of R246 in their order,
loads and their return, stores, strong accesses, atomics, and the accesses of peers and hosts.
-/

namespace Sys2Proof.Machine

/-! Forms. -/

/-- The space of a lane access and how its address is formed (R166). -/
inductive AccSpace
  /-- Private bytes at FP plus an offset (R248). -/
  | priv (off : Nat)
  /-- Scratchpad of the block, or of the member `k` places on (R250). -/
  | scratch (k : Nat)
  | typed (b : Buf)
  /-- Device or host space from base bk (R252, R257). -/
  | dev (k : Nat)
  | host (k : Nat)
  | peer
  deriving DecidableEq, Repr

/-- A lane access: its operands, size and space; `wr` says that it stores. -/
structure LaneAcc where
  x : Spec
  a : Spec
  size : Nat
  space : AccSpace
  wr : Bool := false
  /-- Registers that x names, and their alignment. -/
  regs : Nat
  la : BitVec 4

/-- Registers of a datum of `z` bytes (R242). -/
def regsOf (z : Nat) : Nat := if z ≤ 4 then 1 else z / 4

/-- Size in bytes of a size code (R244). -/
def sizeOf' (s : BitVec 2) : Nat := 2 ^ s.toNat

/-- The typed buffer of a code (R244); code 3 is illegal before it is used. -/
def bufOf (u : BitVec 2) : Buf := if u == 0#2 then .w else if u == 1#2 then .a else .c

/-- The base pair an access reads: sixteen bytes below s32, by its number (R42). -/
def baseReg (k : Nat) : Nat := 24 + 2 * k

def LaneAcc.baseRegs (q : LaneAcc) : List RegId :=
  match q.space with
  | .dev k => [.s (baseReg k), .s (baseReg k + 1)]
  | .host k => [.s (baseReg k), .s (baseReg k + 1)]
  | _ => []

/-- The source by which the address operand is read (R258, R415). -/
def LaneAcc.aSrc (q : LaneAcc) : Src :=
  { spec := q.a, raw := true, w64 := match q.space with | .peer => true | _ => false }

/-- The access has an address operand. -/
def LaneAcc.hasA (q : LaneAcc) : Bool :=
  match q.space with
  | .priv _ => false
  | _ => true

/-- The access executes once (R241). -/
def LaneAcc.uni (q : LaneAcc) : Bool :=
  match q.x with
  | .s _ => true
  | .ic _ => true
  | .fc _ => true
  | .special k => !(k == 0 || k == 1 || k == 7)
  | _ => false

/-- The data words of x in order: consecutive registers, or consecutive entries of one queue; a constant is
extended with its sign to the width of the position and a special with zeros (R101, R242, R415). -/
def LaneAcc.words (q : LaneAcc) : List Src :=
  (List.range q.regs).map fun i =>
    match q.x with
    | .v n => { spec := .v (Fin.ofNat 128 (n + i)), raw := true }
    | .s n => { spec := .s (Fin.ofNat 64 (n + i)), raw := true }
    | .ic n => { spec := if i == 0 then .ic n else if icVal n < 0 then .ic 16 else .ic 0, raw := true }
    | .special k => { spec := if i == 0 then .special k else .ic 0, raw := true }
    | x => { spec := x, raw := true }

/-- x may stand as the destination of a load (R242). -/
def Ctx.loadXOk (c : Ctx) (x : Spec) (k : Nat) : Bool :=
  match x with
  | .v n => c.vecRun n k k
  | .s n => c.uniRun n k k
  | .lq _ => c.inA && c.w.decoupled
  | .sq _ => !c.inA && c.w.decoupled
  | _ => false

/-- x may stand as the data of a store (R242, R415). -/
def Ctx.storeXOk (c : Ctx) (q : LaneAcc) : Bool :=
  match q.x with
  | .v n => c.vecRun n q.regs q.regs
  | .s n => c.uniRun n q.regs q.regs
  | x => c.srcOk q.uni { spec := x, raw := true }

/-- The registers that an access names (R110). -/
def LaneAcc.protect (q : LaneAcc) : List RegId :=
  specRegs q.x q.regs ++ (if q.hasA then specRegs q.a (if q.aSrc.w64 then 2 else 1) else []) ++ q.baseRegs

/-- The checks of an access before it performs (R119, R241 to R244). -/
def LaneAcc.need (q : LaneAcc) (c : Ctx) (xOk illegal mode : Bool) : Need :=
  { illegal := illegal
    operand := !xOk || (q.hasA && !c.srcOk q.uni q.aSrc)
    guard := !q.uni
    mode := mode
    regs := q.protect }

/-! Addresses and their checks (R246). -/

/-- What the checks find of one lane. -/
inductive LaneOut
  | ok (x : LaneAddr)
  /-- Order 1 to 7 of R246. -/
  | bad (order : Nat) (t : Trap)
  /-- V = 0 at order 4. -/
  | miss (va : Nat)
  /-- Aimed at a gang member that is not resident (R60). -/
  | wait

/-- A span of a wave access meets a lock of the core: a destination span or a fill lock, and for a store
a source span as well (R183, R195). -/
def Core.locked (k : Core) (space owner lo hi : Nat) (write : Bool) : Bool :=
  (k.copies.any fun x =>
    (x.dstSpan.toList.any fun sp => sp.meets space owner lo hi) ||
      (write && x.srcSpan.toList.any fun sp => sp.meets space owner lo hi)) ||
  k.locks.any fun l => l.span.meets space owner lo hi

/-- The core that issues. -/
def Ctx.coreState (c : Ctx) : Core := c.s.core c.w.core

/-- The block of a gang member of the issuing block, with its number (R60, R250). -/
def Ctx.memberBlock (c : Ctx) (t : Nat) : Option (Nat × Block) :=
  ((List.range c.s.blocks.length).map fun b => (b, c.s.block b)).find? fun x =>
    x.2.launch == c.block.launch && x.2.gang == c.block.gang && x.2.member == t

/-- The target of a member selector (R250). -/
inductive Member
  | block (b : Nat)
  | absent
  | wait

def Ctx.member (c : Ctx) (k : Nat) : Member :=
  if k == 0 then .block c.blockId
  else
    let t := (c.block.member + k) % 4
    if c.block.gangSize ≤ t then .absent
    else match c.memberBlock t with
      | none => .wait
      | some (b, x) => match x.phase with
        | .resident => .block b
        | .retired => .absent
        | _ => .wait

/-- A fault of a lane. -/
def laneBad (order l : Nat) (cls : TrapClass) (cause : Nat) (addr : Nat) : LaneOut :=
  .bad order { cls := cls, cause := cause, lane := l, addr := BitVec.ofNat 64 addr }

/-- Orders 5 and 6 for a lane that has its place (R246). -/
def Ctx.lockOut (c : Ctx) (wr : Bool) (z l : Nat) (p : Place) (addr va : Nat) : LaneOut :=
  let sp := lockSpace p
  let owner := match p with
    | .dev => c.asid
    | .host => c.asid
    | _ => sp.2
  if c.coreState.locked sp.1 owner va (va + z - 1) wr then laneBad 5 l .rangeLocked 0 va
  else
    let tagged := match p with
      | .scr b => wr && (c.s.block b).tagged addr z
      | _ => false
    if tagged then laneBad 6 l .barrierClobber 0 va
    else .ok { lane := l, place := p, addr := addr, va := va }

/-- The checks of a virtual address in device or host space. -/
def Ctx.virtOut (c : Ctx) (host wr : Bool) (z l va : Nat) : LaneOut :=
  if va % z != 0 then laneBad 1 l .align 0 va
  else if Config.addressTop ≤ va then laneBad 3 l .protection 1 va
  else match c.s.translate (some c.w.core) c.fn c.asid { write := wr, code := wr, host := host, priv := c.priv } va with
    | .miss => .miss va
    | .fault cause => laneBad 4 l .protection cause va
    | .ok pa => c.lockOut wr z l (if host then .host else .dev) pa va

/-- Orders 1 to 6 of R246 for lane l, whose address operand reads `v`; private bytes stand in the core, at no device
address (R173). DEDUCED, log entry 39. The window of a node
that no function of this module holds is not known here: its node refuses what lies outside (DESIGN CHOICE, log
entry 65). -/
def Ctx.laneOut (c : Ctx) (q : LaneAcc) (v : Dword) (l : Nat) : LaneOut :=
  let z := q.size
  let o := v.toNat % 2 ^ 32
  match q.space with
  | .priv off =>
    let e := c.st.fp + off
    if c.w.slim < e + z then laneBad 2 l .stackLimit 0 e
    else .ok { lane := l, place := .scr c.blockId, addr := l * 2 ^ 18 + e, va := e }
  | .scratch k =>
    match c.member k with
    | .wait => .wait
    | .absent =>
      if o % z != 0 then laneBad 1 l .align 0 o
      else laneBad 3 l .protection (if 2 ^ 18 ≤ o then 1 else 3) o
    | .block b =>
      if o % z != 0 then laneBad 1 l .align 0 o
      else if 2 ^ 18 ≤ o || (c.s.block b).scrSize < o + z then laneBad 3 l .protection 1 o
      else c.lockOut q.wr z l (.scr b) o o
  | .typed u =>
    if o % z != 0 then laneBad 1 l .align 0 o
    else if c.block.typedSize u < o + z then laneBad 3 l .protection 1 o
    else if q.wr && u == .w then laneBad 3 l .protection 2 o
    else c.lockOut q.wr z l (.typed c.blockId u) o o
  | .dev k => c.virtOut false q.wr z l ((c.rd.uni64 (baseReg k)).toNat + o)
  | .host k => c.virtOut true q.wr z l ((c.rd.uni64 (baseReg k)).toNat + o)
  | .peer =>
    let node := (hiWord v).toNat
    let out := match c.s.fnOfNode node with
      | some f => f.tear.isNone && f.wins.toNat < o + z
      | none => false
    if o % z != 0 then laneBad 1 l .align 0 o
    else if 4096 ≤ node || out then laneBad 3 l .protection 1 o
    else c.lockOut q.wr z l (.peer node) o o

/-- The order at which a lane stops. -/
def LaneOut.order : LaneOut → Nat
  | .wait => 0
  | .bad k _ => k
  | .miss _ => 4
  | .ok _ => 100

/-- The lane that decides: the earliest order, and in it the lowest lane (R246). -/
def firstOut : List LaneOut → Option LaneOut
  | [] => none
  | x :: t =>
    match firstOut t with
    | some y => if y.order < x.order then some y else some x
    | none => some x

/-- What the checks of all lanes come to. -/
inductive Scan
  | ok (xs : List LaneAddr)
  | trap (t : Trap)
  | miss (va : Nat)
  | wait

/-- The lanes that access memory: live ones that take part, or one for a uniform x, whose private bytes are lane 0's
(R248); none in a fragment of helper lanes (R34, R241). DESIGN CHOICE, log entry 80. -/
def Ctx.accLanes (c : Ctx) (q : LaneAcc) : List Nat :=
  if q.uni then (if c.allHelpers then [] else [0])
  else lanes.filter fun l => c.partLive.getLsbD l

/-- Check every lane of an access (R246). -/
def Ctx.scan (c : Ctx) (q : LaneAcc) (av : Nat → Dword) : Scan :=
  let outs := (c.accLanes q).map fun l => c.laneOut q (av l) l
  match firstOut outs with
  | some .wait => .wait
  | some (.bad _ t) => .trap t
  | some (.miss va) => .miss va
  | _ => .ok (outs.filterMap fun x => match x with | .ok y => some y | _ => none)

/-! The stack cache (R173). -/

/-- Where a word of the lanes' private bytes stands in the wave's backing slot (R173, R324). DESIGN CHOICE, log
entry 34. -/
def Wave.backAt (w : Wave) (p : Packet) (word : Nat) : Nat := p.pbase.toNat + w.backing * (p.psz * 32) + 128 * word
def Ctx.backAt (c : Ctx) (word : Nat) : Nat := c.w.backAt c.launch.packet word

/-- A store that has not settled keeps its line in the stack cache. -/
def Wave.pinned (w : Wave) (k : StackLine) : Bool :=
  w.privPend.any fun p => p.bytes.any fun b => privWord b.1 == k.word

/-- What bringing lines into the stack cache comes to. -/
inductive Stacked
  | ok (c : Ctx)
  | stop (sc : Scan)

/-- The translation of a word's backing, as a device access (R173). -/
def Ctx.backing (c : Ctx) (word : Nat) (wr : Bool) (go : Nat → Stacked) : Stacked :=
  let va := c.backAt word
  match c.s.translate (some c.w.core) c.fn c.asid { write := wr, priv := 2 } va with
  | .miss => .stop (.miss va)
  | .fault cause => .stop (.trap { cls := .protection, cause := cause, addr := BitVec.ofNat 64 va })
  | .ok pa => go pa

/-- Room for a line: a full cache evicts the line used longest ago that no unsettled store needs, and writes it
back where the backing is older. -/
def Ctx.stackRoom (c : Ctx) : Stacked :=
  if c.w.cache.length < Config.stackLines then .ok c
  else match c.w.cache.reverse.find? fun k => !c.w.pinned k with
    | none => .stop .wait
    | some k =>
      let out := fun (c : Ctx) => Stacked.ok { c with w := { c.w with cache := c.w.cache.filter (·.word != k.word) } }
      if !k.dirty then out c
      else c.backing k.word true fun pa => out { c with s := c.s.writeLine pa k }

/-- Bring the line of a word into the stack cache, as the one last used. A shadow's wave has no backing and no
cache (R395). -/
def Ctx.stackLine (c : Ctx) (word : Nat) : Stacked :=
  if c.block.shadow then .ok c
  else match c.w.cache.find? (·.word == word) with
    | some k => .ok { c with w := { c.w with cache := k :: c.w.cache.filter (·.word != word) } }
    | none => match c.stackRoom with
      | .stop sc => .stop sc
      | .ok c => c.backing word false fun pa =>
        let k : StackLine :=
          { word := word, bytes := c.s.readBytes .dev pa 128
            marked := (List.range 4).filter fun j => c.s.poisoned .dev (pa + 32 * j) }
        .ok { c with
          s := c.s.fillTlb (some c.w.core) c.fn c.asid (c.backAt word), w := { c.w with cache := k :: c.w.cache } }

/-- A private access whose checks have passed brings in the lines of its words; any other is as it was. -/
def Ctx.stack (c : Ctx) (q : LaneAcc) (sc : Scan) : Ctx × Scan :=
  match q.space, sc with
  | .priv off, .ok (x :: xs) =>
    let e := c.st.fp + off
    match c.stackLine (e / 4) with
    | .stop sc' => (c, sc')
    | .ok c1 =>
      if q.size ≤ 4 then (c1, .ok (x :: xs))
      else match c1.stackLine (e / 4 + 1) with
        | .stop sc' => (c, sc')
        | .ok c2 => (c2, .ok (x :: xs))
  | _, _ => (c, sc)

/-- Where an access waits that finds its place not ready: at a gang member that has not started (R60), or for room in
the stack cache. -/
def LaneAcc.waits (q : LaneAcc) : Park :=
  match q.space with
  | .scratch _ => .member
  | _ => .stall

/-- Park on a translation (R200). -/
def Ctx.parkXlate (c : Ctx) (va : Nat) (wr : Bool) : Act :=
  let r := c.s.parkFault (dieOf c.w.core) c.fn c.asid va wr (.frag c.r)
  .park { c with s := r.1 } (match r.2 with | some id => .xlate id | none => .refused)

/-- Fill the TLBs with the translations of an access (R199). -/
def Ctx.fillTlbs (c : Ctx) (xs : List LaneAddr) : Ctx :=
  { c with s := xs.foldl (fun s x => match x.place with
      | .dev => s.fillTlb (some c.w.core) c.fn c.asid x.va
      | .host => s.fillTlb (some c.w.core) c.fn c.asid x.va
      | _ => s) c.s }

/-- A watch unit of the context catches an access: WATCH is due at the next boundary (R403). -/
def Ctx.watched (c : Ctx) (wr : Bool) (xs : List LaneAddr) : Ctx :=
  let t := c.context.trace
  let hit := fun (en kind : Nat) (lo hi : Word) =>
    t.ctl.getLsbD en && (t.ctl.toNat / 2 ^ kind % 4).testBit (if wr then 1 else 0) &&
      xs.any fun x => x.place == .dev && x.va / 32 == (pair lo hi).toNat / 32
  if hit 6 8 t.watch0Lo t.watch0Hi then
    { c with f := { c.f with watch := some (0, pair t.watch0Lo t.watch0Hi) } }
  else if hit 7 10 t.watch1Lo t.watch1Hi then
    { c with f := { c.f with watch := some (1, pair t.watch1Lo t.watch1Hi) } }
  else c

/-- An access beyond the block's own stores that a discarded block may not have done: a peer or host
access, a strong access or an atomic at gang scope or wider (R336). -/
def Ctx.external (c : Ctx) : Ctx :=
  { c with s := c.s.updBlock c.blockId fun b => { b with external := true } }
def Ctx.externalIf (c : Ctx) (b : Bool) : Ctx := if b then c.external else c

def LaneAcc.leaves (q : LaneAcc) : Bool :=
  match q.space with
  | .host _ => true
  | .peer => true
  | _ => false

/-! Loads. -/

/-- The queue number of a load's destination, as LoadDest numbers them. -/
def queueNum : Spec → Nat
  | .lq n => n
  | .sq n => 4 + n
  | _ => 6

/-- The words of a datum: 8- and 16-bit data extended to 32 bits (R243). -/
def extendWords (z : Nat) (sg : Bool) (bs : List Byte) : List Word :=
  if z < 4 then [BitVec.ofNat 32 (wrapInt 32 (intOf sg (8 * z) (natOfBytes bs)))]
  else (List.range (z / 4)).map fun i => BitVec.ofNat 32 (natOfBytes ((bs.drop (4 * i)).take 4))

/-- Put a load's data where it goes: word i of lane l is `g i l`, lanes outside `part` untouched, or zero
in a queue entry (R46, R105). -/
def Wave.putLoad (w : Wave) (sl : Slice) (dest : LoadDest) (k : Nat) (part : Mask) (g : Nat → Nat → Word) : Wave :=
  let st := w.stream sl
  match dest with
  | .vec n =>
    let r := (List.range k).foldl (fun (r : Regs) i => r.setVec (n + i) (Vec.merge (r.vec (n + i)) part (g i))) st.regs
    w.setStream sl { st with regs := r }
  | .uni n =>
    let r := (List.range k).foldl (fun (r : Regs) i => r.setUni (n + i) (g i 0)) st.regs
    w.setStream sl { st with regs := r }
  | .queue q ids =>
    (List.range ids.length).foldl (fun (w : Wave) i =>
      let x := regionQueues.getD q .cq
      w.setFifo x ((w.fifo x).fill (ids.getD i 0)
        (.filled (Vec.build fun l => if part.getLsbD l then g i l else 0)))) w
  | .shape _ => w

/-- Set the state of a load's queue entries. -/
def Wave.markEntries (w : Wave) (q : Nat) (ids : List Nat) (st : QState) : Wave :=
  let x := regionQueues.getD q .cq
  ids.foldl (fun (w : Wave) id => w.setFifo x ((w.fifo x).fill id st)) w

/-- A shape entry from its 48 bytes: E0 to E4, M0 to M4, S0 to S4 and NDIM (R127, R145). -/
def shapeOf (bs : List Byte) : Shape :=
  let word := fun (o : Nat) => BitVec.ofNat 32 (natOfBytes ((bs.drop o).take 4))
  let e := (List.range 5).map fun i => word (4 * i)
  let nd := (bs.getD 45 0).toNat
  let bad := nd == 0 || 5 < nd || (e.take nd).any (· == 0)
  { e := e, m := (List.range 5).map fun i => word (20 + 4 * i), sh := (bs.drop 40).take 5
    ndim := if bad then 0 else nd }

/-- Two loads read a byte in common. -/
def Load.overlaps (a b : Load) : Bool :=
  a.lanes.any fun x => b.lanes.any fun y =>
    x.place == y.place && x.addr < y.addr + b.size && y.addr < x.addr + a.size

/-- A load in flight may return: no earlier load of the wave reads one of its bytes (R234), and nothing that the order of
the streams puts before it is under way (R226). -/
def State.mayReturn (s : State) (w : Nat) (ld : Load) : Bool :=
  !((s.wave w).loads.any fun x => x.id < ld.id && (x.id < ld.fence || x.overlaps ld)) && !s.behind w ld.slice ld.fence

/-- POISON consumed by a load whose fragment is gone: the context ends, or in a shadow its screen (R339, R395). -/
def State.strayPoison (s : State) (w : Nat) (ld : Load) (k : SecKey) : State :=
  let wv := s.wave w
  match (s.block wv.block).shadow, (s.block wv.block).screen with
  | true, some id => s.abandonScreen id
  | _, _ =>
    let r : ErrRec :=
      { kind := 6, loc := locOfCore wv.core (wv.slot / 8)
        pc := ld.pc + (if ld.slice == .a then 1 else 0), eseq := ld.eseq
        info := BitVec.ofNat 32 TrapClass.poison.code }
    s.trapEnds (s.launchOf w) wv.core (s.launchRec (s.launchOf w) (r.atSite s (some k))) true

/-- The strong stores of the wave that stand in an egress queue over bytes of a load reach their place before it reads
(R220, R240). -/
def State.flushFor (s : State) (w : Nat) (ld : Load) : State :=
  s.flushEgress fun e => e.wave == w && ld.lanes.any fun x => x.place == .dev &&
    e.writes.any fun y => x.addr < y.1 + y.2.length && y.1 < x.addr + ld.size

/-- The data of a load return (R245): it reads its bytes now, once it may. Uncorrectable data marks a queue entry (R51) and
is otherwise consumed, a shape entry's included, by the open region where the load is of it (R145, R335). -/
def State.loadReturn (s : State) (w id : Nat) : State :=
  match ((s.wave w).loads.find? (·.id == id)).filter (s.mayReturn w) with
  | none => s
  | some ld =>
    let s := s.flushFor w ld
    let got := ld.lanes.map fun x =>
      let r := s.loadBytes w (some ld.id) x.place x.addr ld.size
      (x.lane, extendWords ld.size ld.signed r.1, r.1)
    let bad := ld.lanes.findSome? fun x => s.loadMark w (some ld.id) x.place x.addr ld.size
    let g := fun (i l : Nat) => ((got.find? (·.1 == l)).map fun x => x.2.1.getD i 0).getD 0
    let l := s.launch (s.launchOf w)
    let dev := ld.lanes.any (·.place == .dev)
    let s := if dev then s.count l.fn l.asid 7 (min ld.lanes.length (Config.l1Misses s.cycle w)) else s
    let s := s.updWave w fun x => { x with loads := x.loads.filter (·.id != id) }
    match ld.dest with
    | .queue q ids =>
      s.updWave w fun x =>
        if bad.isSome then x.markEntries q ids (.marked bad) else x.putLoad ld.slice ld.dest (regsOf ld.size) ld.part g
    | d =>
      match bad with
      | none =>
        (match d with
         | .shape n => s.updContext l.fn l.asid fun c =>
           { c with shapes := c.shapes.set n (shapeOf (got.flatMap (·.2.2))) }
         | _ => s.updWave w fun x => x.putLoad ld.slice ld.dest (regsOf ld.size) ld.part g)
      | some k =>
        match Ctx.of? s { wave := w, slice := ld.slice, entry := ld.entry } with
        | some c =>
          let c : Ctx := { c with f := { c.f with pc := ld.pc } }
          if (c.st.region.map fun g => decide (g.opened ≤ ld.id)).getD false then c.consumed k (some ld.eseq)
          else c.takeTrap { cls := .poison, site := some k, eseq := some ld.eseq }
        | none => s.strayPoison w ld k

/-- Sign extension is in force (R243). -/
def Ctx.signed (c : Ctx) : Bool := c.et == 1 || c.et == 3

/-- The destination of a load with its reserved entries. -/
def loadDest (x : Spec) (ids : List Nat) : LoadDest :=
  match x with
  | .v n => .vec n
  | .s n => .uni n
  | x => .queue (queueNum x) ids

/-- Lanes whose destination a load writes, helper lanes included (R34). -/
def Ctx.loadPart (c : Ctx) (q : LaneAcc) : Mask := if q.uni then 1#32 else c.part

/-- Write a result to the register destination of an access that performs now, or to entries reserved at
issue. -/
def Ctx.deliver (c : Ctx) (q : LaneAcc) (ids : List Nat) (g : Nat → Nat → Word) : Ctx :=
  let w := (c.w.setStream c.r.slice c.st).putLoad c.r.slice (loadDest q.x ids) q.regs (c.loadPart q) g
  { c with w := w, st := w.stream c.r.slice }

/-- Reserve the entries of a load, or reuse those of its first execution (R46, R51). -/
def Ctx.loadEntries (c : Ctx) (q : LaneAcc) : Reserve :=
  match c.f.hold with
  | some h => .ok c h.handles
  | none => if isQueue q.x then c.reserve q.x q.regs else .ok c []

/-- Private bytes of a lane, stores not yet settled included (R245). DEDUCED, log entry 34. -/
def Wave.privByte (w : Wave) (a : Nat) : Byte :=
  (w.privPend.reverse.findSome? fun p => (p.bytes.reverse.find? (·.1 == a)).map (·.2)).getD
    (match w.cache.find? (·.word == privWord a) with
     | some k => k.bytes.getD (privAt a) 0
     | none => w.priv.read a)

/-- A private byte that no unsettled store covers lies in a poisoned sector of the stack cache (R396). -/
def Wave.privMarked (w : Wave) (a : Nat) : Bool :=
  !(w.privPend.any fun p => p.bytes.any (·.1 == a)) && w.cache.any fun k => k.marked.any fun j => inSector k.word j a

/-- The sector of a private byte's backing, by which records name it (R173, R398). -/
def Ctx.privSite (c : Ctx) (a : Nat) : Option SecKey :=
  match c.s.translate (some c.w.core) c.fn c.asid { priv := 2 } (c.backAt (privWord a)) with
  | .ok pa => some { place := .dev, idx := (pa + privAt a) / 32 }
  | _ => none

/-- An address-slice load into a load queue poisons its entry where another would trap (R50, R247). -/
def Ctx.poisons (c : Ctx) (q : LaneAcc) : Bool := c.inA && isQueue q.x

/-- Set the state of the entries that a load reserved. -/
def Ctx.mark (c : Ctx) (q : LaneAcc) (ids : List Nat) (st : QState) : Ctx :=
  { c with w := c.w.markEntries (queueNum q.x) ids st }

/-- The address operands of every lane, kept in the hold. -/
def rowsOf (av : Nat → Dword) : List Dword := lanes.map av

/-- The address operand of a load: read now, or as its first execution read it (R51). -/
def Ctx.loadAddr (c : Ctx) (q : LaneAcc) : Reads :=
  match c.f.hold with
  | some h => .ok c [fun l => h.rows.getD l 0]
  | none => if q.hasA then c.readAll [q.aSrc] else .ok c []

/-- The body of a load: check, reserve, and issue (R245, R246). -/
def Ctx.load (c0 : Ctx) (q : LaneAcc) (pc : Dword) : Act :=
  match c0.loadAddr q with
  | .stall => .park c0 .queue
  | .trap t => .trap c0 t
  | .marked c1 k => .consume c1 k
  | .ok c1 vals =>
    let av := vals.getD 0 fun _ => 0
    let checked := c1.stack q (c1.scan q av)
    let c1 := checked.1
    let sc := checked.2
    match sc with
    | .wait => .park c0 q.waits
    | _ =>
    match (match sc with
      | .ok _ => c1.loadEntries q
      | _ => if c1.poisons q then c1.loadEntries q else .ok c1 []) with
    | .stall => .park c0 .queue
    | .discarded c2 =>
      -- the consumer has ended: the load performs and its data is discarded (R159)
      (match sc with
       | .miss va => c0.parkXlate va false
       | .ok xs => .next ((c2.watched false xs).externalIf (q.leaves && !xs.isEmpty)) (c0.window q.la q.protect)
       | _ => .next c2 (c0.window q.la q.protect))
    | .ok c2 ids =>
      match sc with
      | .wait => .park c0 q.waits
      | .trap t =>
        if c1.poisons q then
          .next (c2.mark q ids (.poisoned t.cls t.cause t.lane t.addr pc)) (c0.window q.la q.protect)
        else .trap c0 t
      | .miss va =>
        if c1.poisons q then
          -- the entries keep their place while the slice is parked at the load (R51)
          match c2.parkXlate va false with
          | .park c3 p =>
            let h := match c3.f.hold with
              | some h => h
              | none => { c0.newHold with handles := ids, rows := rowsOf av, arrived := true }
            .park { c3 with f := { c3.f with hold := some h } } p
          | a => a
        else c0.parkXlate va false
      | .ok xs =>
        let c3 := ((c2.fillTlbs xs).watched false xs).externalIf (q.leaves && !xs.isEmpty)
        match q.space with
        | .priv _ =>
          match (xs.flatMap fun x => (List.range q.size).map (x.addr + ·)).find? c3.w.privMarked with
          | some a =>
            (if c1.poisons q then .next (c3.mark q ids (.marked (c3.privSite a))) (c0.window q.la q.protect)
             else .consume c0 (c3.privSite a))
          | none =>
          let g := fun (i l : Nat) =>
            match xs.find? (·.lane == l) with
            | some x => (extendWords q.size c3.signed ((List.range q.size).map fun k =>
                c3.w.privByte (x.addr + k))).getD i 0
            | none => 0
          .next (c3.deliver q ids g) (c0.window q.la q.protect)
        | _ =>
          let ld : Load :=
            { id := c3.w.seq, slice := c3.r.slice, pc := pc, issued := c3.s.cycle, dest := loadDest q.x ids
              size := q.size, signed := c3.signed, lanes := xs, part := c3.loadPart q, entry := c3.r.entry
              fence := c3.st.fence, eseq := c3.eseq }
          .next { c3 with w := { c3.w with loads := c3.w.loads ++ [ld], seq := c3.w.seq + 1 } }
            (c0.window q.la q.protect)

/-- A plain load instruction (R243, R246). A load parked on its translation with entries reserved has
passed its gate. -/
def Ctx.loadOp (c : Ctx) (q : LaneAcc) (illegal : Bool) : Act :=
  match c.f.hold with
  | some _ => c.load q c.f.pc
  | none => c.gate (q.need c (c.loadXOk q.x q.regs) illegal (badEt c.et anyEt)) fun c => c.load q c.f.pc

/-! Stores. -/

/-- The bytes that lane l stores (R243). -/
def storeBytes (z : Nat) (ws : List (Nat → Dword)) (l : Nat) : List Byte :=
  (ws.flatMap fun w => bytesOfWord ((w l).setWidth 32)).take z

/-- The node of a lane. -/
def LaneAddr.node (x : LaneAddr) : Nat :=
  match x.place with
  | .peer n => n
  | _ => 0

/-- The lanes of a peer access in the order in which they are replayed: by node, then by lane (R259). -/
def replayOrder (xs : List LaneAddr) : List LaneAddr :=
  sortBy (fun x y => x.node < y.node || (x.node == y.node && x.lane ≤ y.lane)) xs

/-- The lanes of an access in the order in which they perform. -/
def LaneAcc.replayed (q : LaneAcc) (xs : List LaneAddr) : List LaneAddr :=
  match q.space with
  | .peer => replayOrder xs
  | _ => xs

/-- A plain store instruction (R245, R246): into the WWB, or among the private stores not yet settled. -/
def Ctx.storeOp (c : Ctx) (q : LaneAcc) (illegal : Bool) : Act :=
  let priv := match q.space with
    | .priv _ => true
    | _ => false
  c.gate { q.need c (c.storeXOk q) illegal false with noRegion := priv } fun c0 =>
    match c0.readAll ((if q.hasA then [q.aSrc] else []) ++ q.words) with
    | .stall => .park c0 .queue
    | .trap t => .trap c0 t
    | .marked c1 k => .consume c1 k
    | .ok c1 vals =>
      let av := if q.hasA then vals.getD 0 fun _ => 0 else fun _ => 0
      let ws := if q.hasA then vals.drop 1 else vals
      let checked := c1.stack q (c1.scan q av)
      let c1 := checked.1
      match checked.2 with
      | .wait => .park c0 q.waits
      | .trap t => .trap c0 t
      | .miss va => c0.parkXlate va true
      | .ok xs =>
        let c2 := ((c1.fillTlbs xs).watched true xs).externalIf (q.leaves && !xs.isEmpty)
        match q.space with
        | .priv _ =>
          let p : PrivPend :=
            { seq := c2.w.seq, issued := c2.s.cycle, slice := c2.r.slice
              bytes := xs.flatMap fun x => (storeBytes q.size ws x.lane).mapIdx fun i b => (x.addr + i, b) }
          .next { c2 with w := { c2.w with privPend := c2.w.privPend ++ [p], seq := c2.w.seq + 1 } }
            (c0.window q.la q.protect)
        | _ =>
          let ls : List LaneStore := (q.replayed xs).map fun x =>
            { lane := x.lane, place := x.place, addr := x.addr, va := x.va, bytes := storeBytes q.size ws x.lane }
          if ls.isEmpty then .next c2 (c0.window q.la q.protect)
          else match c2.out.store c2.r.wave c2.r.slice c2.st.region.isSome ls with
            | some s => .next (c2.reload s) (c0.window q.la q.protect)
            | none => .park c0 .full

/-- A lane access of a size code. -/
def mkAcc (x a : Spec) (la : BitVec 4) (z : Nat) (sp : AccSpace) (wr : Bool) : LaneAcc :=
  { x := x, a := a, size := z, space := sp, wr := wr, regs := regsOf z, la := la }

/-- LDP (R248). -/
def execLdp (x : Spec) (n : BitVec 8) (la : BitVec 4) (z : BitVec 2) (s : State) :
    Host.Outcome State Fault Refusal :=
  issued s fun c => c.loadOp (mkAcc x (.ic 0) la (sizeOf' z) (.priv (n.toNat * sizeOf' z)) false) false
/-- STP (R248). -/
def execStp (x : Spec) (n : BitVec 8) (la : BitVec 4) (z : BitVec 2) (s : State) :
    Host.Outcome State Fault Refusal :=
  issued s fun c => c.storeOp (mkAcc x (.ic 0) la (sizeOf' z) (.priv (n.toNat * sizeOf' z)) true) false
/-- LDS (R250). -/
def execLds (x a : Spec) (la : BitVec 4) (g z : BitVec 2) (s : State) : Host.Outcome State Fault Refusal :=
  issued s fun c => c.loadOp (mkAcc x a la (sizeOf' z) (.scratch g.toNat) false) false
/-- STS (R250). -/
def execSts (x a : Spec) (la : BitVec 4) (g z : BitVec 2) (s : State) : Host.Outcome State Fault Refusal :=
  issued s fun c => c.storeOp (mkAcc x a la (sizeOf' z) (.scratch g.toNat) true) false
/-- LDT (R251). -/
def execLdt (x a : Spec) (la : BitVec 4) (u z : BitVec 2) (s : State) : Host.Outcome State Fault Refusal :=
  issued s fun c => c.loadOp (mkAcc x a la (sizeOf' z) (.typed (bufOf u)) false) (u == 3#2)
/-- STT (R251). -/
def execStt (x a : Spec) (la : BitVec 4) (u z : BitVec 2) (s : State) : Host.Outcome State Fault Refusal :=
  issued s fun c => c.storeOp (mkAcc x a la (sizeOf' z) (.typed (bufOf u)) true) (u == 3#2)
/-- LDD (R252). -/
def execLdd (x a : Spec) (la : BitVec 4) (k z : BitVec 2) (s : State) : Host.Outcome State Fault Refusal :=
  issued s fun c => c.loadOp (mkAcc x a la (sizeOf' z) (.dev k.toNat) false) false
/-- STD (R252). -/
def execStd (x a : Spec) (la : BitVec 4) (k z : BitVec 2) (s : State) : Host.Outcome State Fault Refusal :=
  issued s fun c => c.storeOp (mkAcc x a la (sizeOf' z) (.dev k.toNat) true) false
/-- LDDW (R252). -/
def execLddw (x a : Spec) (la : BitVec 4) (k : BitVec 2) (s : State) : Host.Outcome State Fault Refusal :=
  issued s fun c => c.loadOp (mkAcc x a la 16 (.dev k.toNat) false) false
/-- STDW (R252). -/
def execStdw (x a : Spec) (la : BitVec 4) (k : BitVec 2) (s : State) : Host.Outcome State Fault Refusal :=
  issued s fun c => c.storeOp (mkAcc x a la 16 (.dev k.toNat) true) false
/-- LDH (R257). -/
def execLdh (x a : Spec) (la : BitVec 4) (k z : BitVec 2) (s : State) : Host.Outcome State Fault Refusal :=
  issued s fun c => c.loadOp (mkAcc x a la (sizeOf' z) (.host k.toNat) false) false
/-- STH (R257). -/
def execSth (x a : Spec) (la : BitVec 4) (k z : BitVec 2) (s : State) : Host.Outcome State Fault Refusal :=
  issued s fun c => c.storeOp (mkAcc x a la (sizeOf' z) (.host k.toNat) true) false
/-- STX (R258): a plain store, delivered at l. -/
def execStx (x a : Spec) (la : BitVec 4) (z : BitVec 2) (s : State) : Host.Outcome State Fault Refusal :=
  issued s fun c => c.storeOp (mkAcc x a la (sizeOf' z) .peer true) false

/-- PFD (R254): nothing but RANGE_LOCKED where the byte addressed lies in a destination span. DESIGN CHOICE, log entry 80. -/
def execPfd (a : Spec) (la : BitVec 4) (k h : BitVec 2) (s : State) : Host.Outcome State Fault Refusal :=
  issued s fun c =>
    let q := mkAcc (.v 0) a la 1 (.dev k.toNat) false
    c.gate
      { illegal := h == 3#2
        operand := !c.srcOk false q.aSrc
        guard := true
        regs := specRegs a 1 ++ q.baseRegs }
      fun c0 =>
        match c0.readAll [q.aSrc] with
        | .stall => .park c0 .queue
        | .trap t => .trap c0 t
        | .marked c1 k => .consume c1 k
        | .ok c1 vals =>
          let va := fun (l : Nat) => (c1.rd.uni64 (baseReg k.toNat)).toNat +
            ((vals.getD 0 fun _ => 0) l).toNat % 2 ^ 32
          let hit := (lanes.filter fun l => c1.partLive.getLsbD l).find? fun l =>
            c1.coreState.copies.any fun x => x.dstSpan.toList.any fun sp => sp.meets 4 c1.asid (va l) (va l)
          match hit with
          | some l => .trap c0 { cls := .rangeLocked, lane := l, addr := BitVec.ofNat 64 (va l) }
          | none => .next c1 (c0.window la (specRegs a 1 ++ q.baseRegs))

/-! Strong accesses (R218, R220, R253). -/

/-- The scan of a held access when it performs, from the registers of its issue (R207). -/
def Ctx.rescan (c : Ctx) (q : LaneAcc) (h : Hold) : Scan :=
  c.scan q fun l => h.rows.getD l 0

/-- The first of the places of a strong access, as `s` holds them, that is poisoned (R397). -/
def Ctx.strongBad (c : Ctx) (s : State) (xs : List LaneAddr) : Option SecKey :=
  (xs.find? fun x => s.strongMarked c.blockId c.w.core c.sc x.place x.addr).map fun x =>
    { place := x.place, idx := x.addr / 32 }

/-- SLDD (R253): earlier strong stores of the wave to its bytes come first (R220). -/
def Ctx.strongLoad (c : Ctx) (q : LaneAcc) : Act :=
  let win := c.window q.la q.protect
  c.heldOp (q.need c (c.loadXOk q.x q.regs) false (badEt c.et anyEt || badSc c.mode))
    (fun c0 =>
      match c0.readAll [q.aSrc] with
      | .stall => .error (.park c0 .queue)
      | .trap t => .error (.trap c0 t)
      | .marked c1 k => .error (.consume c1 k)
      | .ok c1 vals =>
        let av := vals.getD 0 fun _ => 0
        match c1.scan q av with
        | .wait => .error (.park c0 .stall)
        | .miss va =>
          if c1.poisons q then
            -- the entries keep their place in reservation order (R51)
            match c1.reserve q.x q.regs with
            | .stall => .error (.park c0 .queue)
            | .discarded _ => .error (c0.parkXlate va false)
            | .ok c2 ids => .error (match c2.parkXlate va false with
              | .park c3 p => .holdPark c3 { c0.newHold with rows := rowsOf av, handles := ids } p
              | a => a)
          else .error (c0.parkXlate va false)
        | .trap t =>
          if c1.poisons q then
            match c1.reserve q.x q.regs with
            | .stall => .error (.park c0 .queue)
            | .discarded c2 => .error (.next c2 win)
            | .ok c2 ids => .error (.next (c2.mark q ids (.poisoned t.cls t.cause t.lane t.addr c0.f.pc)) win)
          else .error (.trap c0 t)
        | .ok _ =>
          match (if isQueue q.x then c1.reserve q.x q.regs else .ok c1 []) with
          | .stall => .error (.park c0 .queue)
          | .discarded c2 => .error (.hold c2 { c0.newHold with rows := rowsOf av })
          | .ok c2 ids => .error (.hold c2 { c0.newHold with rows := rowsOf av, handles := ids }))
    (fun c h =>
      match c.rescan q h with
      | .wait => .park c .stall
      | .miss va => c.parkXlate va false
      | .trap t =>
        if c.poisons q then .next (c.mark q h.handles (.poisoned t.cls t.cause t.lane t.addr c.f.pc)) win
        else .trap c t
      | .ok xs =>
        if xs.any fun x => c.s.egressMeets c.r.wave x.addr q.size then .park c .stall
        else
        let r := xs.foldl (fun (acc : State × List (Nat × List Word)) x =>
          let t := acc.1.strongReads c.blockId c.w.core c.sc .dev x.addr q.size
          (t.1, acc.2 ++ [(x.lane, extendWords q.size c.signed t.2)])) (c.s, [])
        match c.strongBad r.1 xs with
        | some k =>
          (if c.poisons q then .next (c.mark q h.handles (.marked (some k))) win
           else .consume c k)
        | none =>
          let c1 := { c with s := r.1 }
          let g := fun (i l : Nat) => ((r.2.find? (·.1 == l)).map fun x => x.2.getD i 0).getD 0
          .next ((c1.deliver q h.handles g).watched false xs) win)

/-- SSTD (R253): its bytes reach their place, or an egress queue where the surroundings have it so (R240). DESIGN CHOICE, log
entry 87: of several lanes that store one byte the highest gives it its value. -/
def Ctx.strongStore (c : Ctx) (q : LaneAcc) : Act :=
  let win := c.window q.la q.protect
  c.heldOp { q.need c (c.storeXOk q) false (badSc c.mode) with noRegion := true }
    (fun c0 =>
      match c0.readAll (q.aSrc :: q.words) with
      | .stall => .error (.park c0 .queue)
      | .trap t => .error (.trap c0 t)
      | .marked c1 k => .error (.consume c1 k)
      | .ok c1 vals =>
        let av := vals.getD 0 fun _ => 0
        match c1.scan q av with
        | .wait => .error (.park c0 .stall)
        | .miss va => .error (c0.parkXlate va true)
        | .trap t => .error (.trap c0 t)
        | .ok _ => .error (.hold c1 { c0.newHold with
            rows := rowsOf av, data := lanes.flatMap fun l => storeBytes q.size (vals.drop 1) l }))
    (fun c h =>
      match c.rescan q h with
      | .wait => .park c .stall
      | .miss va => c.parkXlate va true
      | .trap t => .trap c t
      | .ok xs =>
        if xs.any fun x => c.s.egressMeets c.r.wave x.addr q.size then .park c .stall
        else
        let ws := xs.map fun x => (x.addr, (h.data.drop (q.size * x.lane)).take q.size)
        let s := if !h.post then c.s.strongStores c.blockId c.w.core c.sc ws
          else { c.s with egress := c.s.egress ++
            [{ wave := c.r.wave, core := c.w.core, launch := c.launchId, sc := c.sc, writes := ws }] }
        .next ((({ c with s := s } : Ctx).watched true xs).externalIf (2 ≤ c.sc && !xs.isEmpty)) win)

/-- SLDD (R253). -/
def execSldd (x a : Spec) (la : BitVec 4) (k z : BitVec 2) (s : State) : Host.Outcome State Fault Refusal :=
  issued s fun c => c.strongLoad (mkAcc x a la (sizeOf' z) (.dev k.toNat) false)
/-- SSTD (R253). -/
def execSstd (x a : Spec) (la : BitVec 4) (k z : BitVec 2) (s : State) : Host.Outcome State Fault Refusal :=
  issued s fun c => c.strongStore (mkAcc x a la (sizeOf' z) (.dev k.toNat) true)

/-! Atomics (R255, R256). -/

/-- The types an atomic operation accepts (R255). -/
def atomicEts (op : Nat) : List Nat := if op < 3 then [0, 1, 2, 3, 4] else if op == 8 then [5] else anyEt

/-- The access of an atomic: x names one operand, or two for .cas (R255). -/
def atomicAcc (c : Ctx) (x a : Spec) (la : BitVec 4) (op : Nat) (sp : AccSpace) : LaneAcc :=
  let z := if et64 c.et then 8 else 4
  { x := x, a := a, size := z, space := sp, wr := true, regs := regsOf z * (if op == 7 then 2 else 1), la := la }

/-- x is a register run of an atomic (R255). -/
def Ctx.atomicXOk (c : Ctx) (q : LaneAcc) : Bool :=
  match q.x with
  | .v n => c.vecRun n q.regs q.regs
  | .s n => c.uniRun n q.regs q.regs
  | _ => false

/-- The checks of an atomic; `sc` says that it reads the scope. -/
def atomicNeed (c : Ctx) (q : LaneAcc) (op : Nat) (sc : Bool) : Need :=
  { q.need c (c.atomicXOk q) (8 < op) (badEt c.et (atomicEts op) || (sc && badSc c.mode)) with noRegion := true }

/-- The operands of lane l: d or c, and the n of .cas. -/
def Ctx.atomicOps (c : Ctx) (q : LaneAcc) (l : Nat) : Dword × Dword :=
  let w := fun (i : Nat) => (c.value (q.words.getD i { spec := .ic 0 }) l).setWidth 32
  if q.size == 8 then (pair (w 0) (w 1), pair (w 2) (w 3)) else ((w 0).setWidth 64, (w 1).setWidth 64)

/-- Give every lane that performed the old value it found, the n operand kept (R34, R255). -/
def Ctx.putOld (c : Ctx) (q : LaneAcc) (old : Nat → Option Dword) : Ctx :=
  let m := maskOf fun l => (old l).isSome
  let v := fun (l : Nat) => (old l).getD 0
  match q.x with
  | .v n =>
    let c := c.setVec n m fun l => loWord (v l)
    if q.size == 8 then c.setVec (n + 1) m fun l => hiWord (v l) else c
  | .s n => if (old 0).isNone then c else if q.size == 8 then c.setUni64 n (v 0) else c.setUni n (loWord (v 0))
  | _ => c

/-- The issue of an atomic: every lane is checked before any performs. -/
def Ctx.atomicStart (c0 : Ctx) (q : LaneAcc) : Except Act Hold :=
  match c0.readAll [q.aSrc] with
  | .stall => .error (.park c0 .queue)
  | .trap t => .error (.trap c0 t)
  | .marked c1 k => .error (.consume c1 k)
  | .ok c1 vals =>
    let av := vals.getD 0 fun _ => 0
    match c1.scan q av with
    | .wait => .error (.park c0 .stall)
    | .miss va => .error (c0.parkXlate va true)
    | .trap t => .error (.trap c0 t)
    | .ok _ => .error (.hold c1 { c0.newHold with rows := rowsOf av })

/-- An atomic on memory of this module or of the host; `rd` and `wr` act at its place, and `bad` says that it is poisoned
there. A .cas that finds another
value writes nothing (R255). -/
def Ctx.atomicOp (c : Ctx) (q : LaneAcc) (op : Nat) (sc ext : Bool)
    (bad : State → LaneAddr → Bool) (rd : State → LaneAddr → State × List Byte)
    (wr : State → LaneAddr → List Byte → State) : Act :=
  let win := c.window q.la q.protect
  c.heldOp (atomicNeed c q op sc) (fun c0 => c0.atomicStart q)
    (fun c h =>
      match c.rescan q h with
      | .wait => .park c .stall
      | .miss va => c.parkXlate va true
      | .trap t => .trap c t
      | .ok xs =>
        match xs.find? fun x => bad (rd c.s x).1 x with
        | some x => .consume c (some { place := x.place, idx := x.addr / 32 })
        | none =>
          let sg := etSigned c.et
          let r := xs.foldl (fun (acc : State × List (Nat × Dword)) x =>
            let t := rd acc.1 x
            let old := dwordOfBytes t.2
            let d := c.atomicOps q x.lane
            let v := atomicValue fadd32 op sg (8 * q.size) old d.1 d.2
            let fails := op == 7 && (old ^^^ d.1).toNat % 2 ^ (8 * q.size) != 0
            (if fails then t.1 else wr t.1 x (dwordBytes v q.size), acc.2 ++ [(x.lane, old)])) (c.s, [])
          let c1 : Ctx := { c with s := r.1 }
          let old := fun (l : Nat) => (r.2.find? (·.1 == l)).map (·.2)
          .next (((c1.putOld q old).watched true xs).externalIf (ext && !xs.isEmpty)) win)

/-- ATS: on the block's own scratchpad (R256). -/
def execAts (x a : Spec) (la o : BitVec 4) (s : State) : Host.Outcome State Fault Refusal :=
  issued s fun c =>
    let q := atomicAcc c x a la o.toNat (.scratch 0)
    c.atomicOp q o.toNat false false (fun s y => s.poisoned y.place y.addr)
      (fun s y => (s, s.readBytes y.place y.addr q.size)) (fun s y bs => s.writeBytes y.place y.addr bs)

/-- An atomic at the place of the scope, in device or host memory (R218, R256). -/
def Ctx.scopedAtomic (c : Ctx) (q : LaneAcc) (op : Nat) (ext : Bool) : Act :=
  c.atomicOp q op true ext (fun s y => s.strongMarked c.blockId c.w.core c.sc y.place y.addr)
    (fun s y => s.strongReads c.blockId c.w.core c.sc y.place y.addr q.size)
    (fun s y bs => s.strongWrites c.blockId c.w.core c.sc y.place y.addr bs)

/-- ATD (R256). -/
def execAtd (x a : Spec) (la o : BitVec 4) (s : State) : Host.Outcome State Fault Refusal :=
  issued s fun c => c.scopedAtomic (atomicAcc c x a la o.toNat (.dev 0)) o.toNat (2 ≤ c.sc)

/-- ATH: on host memory (R256). -/
def execAth (x a : Spec) (la o : BitVec 4) (s : State) : Host.Outcome State Fault Refusal :=
  issued s fun c => c.scopedAtomic (atomicAcc c x a la o.toNat (.host 0)) o.toNat true

/-! Peer loads and atomics (R258 to R260). -/

/-- Where the replays of a peer access stand. -/
inductive Replays
  | done (s : State) (reqs : List Nat)
  | wait (s : State) (reqs : List Nat)
  /-- Every lane of a node has its answer, and one is a refusal: the answers so far, and 1 refused or 2 VF gone. -/
  | refused (s : State) (reqs : List Nat) (lane info : Nat)

/-- Advance the replays: ask for the lanes of the next node once every request made is answered, none with a refusal;
the lowest lane refused is named (R246, R259). -/
def replay (c : Ctx) (ask : LaneAddr → PeerAsk) (xs : List LaneAddr) (s : State) (reqs : List Nat) :
    Nat → Replays
  | 0 => .wait s reqs
  | fuel + 1 =>
    let refused := (List.range reqs.length).find? fun i => match s.peerAnswer? (reqs.getD i 0) with
      | some .refused => true
      | some .vfGone => true
      | _ => false
    if reqs.any fun r => (s.peerAnswer? r).isNone then .wait s reqs
    else match refused with
    | some i => .refused s reqs ((xs.getD i { lane := 0, place := .dev, addr := 0, va := 0 }).lane)
        (if s.peerAnswer? (reqs.getD i 0) == some .vfGone then 2 else 1)
    | none =>
      match xs.drop reqs.length with
      | [] => .done s reqs
      | x :: t =>
        let group := x :: t.takeWhile fun y => y.node == x.node
        let r := group.foldl (fun (acc : State × List Nat) y =>
          let q := acc.1.askPeer c.fn y.node y.addr (ask y) c.r.wave false
          (q.1, acc.2 ++ [q.2])) (s, reqs)
        replay c ask xs r.1 r.2 fuel

/-- The sector at a node whose data a request found poisoned, but for a lane that takes no byte of it (R397). -/
def peerBad (s : State) (xs : List LaneAddr) (reqs : List Nat) (covered : LaneAddr → Bool := fun _ => false) :
    Option SecKey :=
  ((List.range xs.length).find? fun i => s.peerAnswer? (reqs.getD i s.peers.length) == some .poisoned &&
    !((xs[i]?).map covered).getD false).bind fun i => (xs[i]?).map fun x => { place := x.place, idx := x.addr / 32 }

/-- The bytes that a request brought. -/
def State.peerData (s : State) (req : Nat) : List Byte :=
  match s.peerAnswer? req with
  | some (.data bs) => bs
  | _ => []

/-- A byte that the write buffers hold for a load of an order number (R204, steps 1 to 3). -/
def State.bufferByte (s : State) (w before : Nat) (p : Place) (a : Nat) : Option Byte :=
  let wv := s.wave w
  ((wv.wwbByte (some before) p a).orElse fun _ => sectorByte (s.core wv.core).bwb wv.block p a).orElse
    fun _ => sectorByte (s.cluster (clusterOf wv.core)).gwb (s.gangOf wv.block) p a

/-- LDX (R258 to R260): a refusal traps, and no register is written until every lane has its data. -/
def Ctx.peerLoad (c : Ctx) (q : LaneAcc) : Act :=
  let win := c.window q.la q.protect
  let go := fun (c : Ctx) (h : Hold) =>
    match c.rescan q h with
    | .wait => Act.park c .stall
    | .miss va => c.parkXlate va false
    | .trap t =>
      if c.poisons q then .next (c.mark q h.handles (.poisoned t.cls t.cause t.lane t.addr c.f.pc)) win
      else .trap c t
    | .ok xs =>
      let ys := replayOrder xs
      match replay c (fun _ => .load q.size) ys c.s h.reqs 40 with
      | .wait s reqs => .park { c with s := s, f := { c.f with hold := some { h with reqs := reqs } } } .peer
      | .refused s _ lane info =>
        let c1 : Ctx := { c with s := s }
        let addr := ((ys.find? (·.lane == lane)).map (·.va)).getD 0
        if c1.poisons q then
          .next (c1.mark q h.handles (.poisoned .peerNak 0 lane (BitVec.ofNat 64 addr) c1.f.pc)) win
        else .trap c1
          { cls := .peerNak, lane := lane, info := BitVec.ofNat 32 info, addr := BitVec.ofNat 64 addr }
      | .done s reqs =>
        let c1 : Ctx := { c with s := s }
        -- a lane whose bytes all stand in the wave's own buffers takes none from the node (R204)
        let covered := fun (x : LaneAddr) => (List.range q.size).all fun k =>
          (s.bufferByte c.r.wave h.seq x.place (x.addr + k)).isSome
        match peerBad s ys reqs covered with
        | some k => if c1.poisons q then .next (c1.mark q h.handles (.marked (some k))) win else .consume c1 k
        | none =>
        let bytes := fun (i : Nat) (x : LaneAddr) =>
          let bs := s.peerData (reqs.getD i 0)
          (List.range q.size).map fun k => (s.bufferByte c.r.wave h.seq x.place (x.addr + k)).getD (bs.getD k 0)
        let vals := ys.mapIdx fun i x => (x.lane, extendWords q.size c1.signed (bytes i x))
        let g := fun (i l : Nat) => ((vals.find? (·.1 == l)).map fun x => x.2.getD i 0).getD 0
        .next ((c1.deliver q h.handles g).externalIf (!xs.isEmpty)) win
  let begin' := fun (c0 c : Ctx) (av : Nat → Dword) (ids : List Nat) =>
    match c.scan q av with
    | .trap t =>
      if c.poisons q then .next (c.mark q ids (.poisoned t.cls t.cause t.lane t.addr c.f.pc)) win else .trap c0 t
    | _ =>
      let h := { c.newHold with handles := ids, rows := rowsOf av }
      go { c with f := { c.f with hold := some h } } h
  match c.f.hold with
  | some h => go c h
  | none =>
    c.gate (q.need c (c.loadXOk q.x q.regs) false (badEt c.et anyEt)) fun c0 =>
      match c0.readAll [q.aSrc] with
      | .stall => .park c0 .queue
      | .trap t => .trap c0 t
      | .marked c1 k => .consume c1 k
      | .ok c1 vals =>
        let av := vals.getD 0 fun _ => 0
        match (if isQueue q.x then c1.reserve q.x q.regs else .ok c1 []) with
        | .stall => .park c0 .queue
        -- the consumer has ended: the load performs and its data is discarded (R159)
        | .discarded c2 => begin' c0 c2 av []
        | .ok c2 ids => begin' c0 c2 av ids

/-- LDX (R258). -/
def execLdx (x a : Spec) (la : BitVec 4) (z : BitVec 2) (s : State) : Host.Outcome State Fault Refusal :=
  issued s fun c => c.peerLoad (mkAcc x a la (sizeOf' z) .peer false)

/-- ATX (R258 to R260): replays performed before a refused one stay performed, and their lanes hold the
old values. -/
def execAtx (x a : Spec) (la o : BitVec 4) (s : State) : Host.Outcome State Fault Refusal :=
  issued s fun c =>
    let q := atomicAcc c x a la o.toNat .peer
    let win := c.window q.la q.protect
    c.heldOp (atomicNeed c q o.toNat false) (fun c0 => c0.atomicStart q)
      (fun c h =>
        match c.rescan q h with
        | .wait => .park c .stall
        | .miss va => c.parkXlate va true
        | .trap t => .trap c t
        | .ok xs =>
          let ys := replayOrder xs
          let ask := fun (y : LaneAddr) =>
            let d := c.atomicOps q y.lane
            PeerAsk.atomic o (BitVec.ofNat 4 c.et) d.1 d.2
          let oldOf := fun (s : State) (reqs : List Nat) (l : Nat) =>
            (((List.range ys.length).find? fun i =>
              (ys.map (·.lane)).getD i 99 == l && (s.peerData (reqs.getD i s.peers.length)).length != 0).map fun i =>
                dwordOfBytes (s.peerData (reqs.getD i 0)))
          match replay c ask ys c.s h.reqs 40 with
          | .wait s reqs => .park { c with s := s, f := { c.f with hold := some { h with reqs := reqs } } } .peer
          | .refused s reqs lane info =>
            let c1 : Ctx := { c with s := s }
            let old := oldOf s reqs
            let done := maskOf fun l => (old l).isSome
            let addr := ((ys.find? (·.lane == lane)).map (·.va)).getD 0
            let c2 := (c1.putOld q old).external
            .trap c2
              { cls := .peerNak, lane := lane, info := BitVec.ofNat 32 info, addr := BitVec.ofNat 64 addr
                mask := done }
          | .done s reqs =>
            let c1 : Ctx := { c with s := s }
            match peerBad s ys reqs with
            | some k => .consume c1.external k
            | none => .next ((c1.putOld q (oldOf s reqs)).externalIf (!xs.isEmpty)) win)

end Sys2Proof.Machine
end

