-- ==== Sys2Proof/Machine/Commit.lean ====
section
/-!
DEFINITION. Frames, commit, abort, acquire, SYNC and the commit status (R208 to R214, R222 to R224, R249,
R260 to R262).
-/

namespace Sys2Proof.Machine

/-! Frames (R249). -/

/-- FRAME and UNFRAME: `fits` says that the move keeps FP in range, `move` makes it. -/
def frameOp (a : Spec) (fits : Ctx → Nat → Bool) (move : Nat → Nat → Nat) (c : Ctx) : Act :=
  let t := (c.uval a).toNat
  c.gate
    { operand := !c.uniOrZero a || t % 16 != 0
      regs := specRegs a 1
      post := if fits c t then none else some { cls := .stackLimit } }
    fun c => .next { c with st := { c.st with fp := move c.st.fp t } } none

/-- FRAME (R249). -/
def execFrame (a : Spec) (s : State) : Host.Outcome State Fault Refusal :=
  issued s (frameOp a (fun c t => c.st.fp + t ≤ c.w.slim) (· + ·))
/-- UNFRAME (R249). -/
def execUnframe (a : Spec) (s : State) : Host.Outcome State Fault Refusal :=
  issued s (frameOp a (fun c t => t ≤ c.st.fp) (· - ·))

/-! Commit (R207 to R209, R260). -/

/-- The requests of a commit: all answered, or the first refusal's kind. -/
inductive Answers
  | all
  | wait
  | refused (info : Nat)

def State.answers (s : State) (reqs : List Nat) : Answers :=
  if reqs.any fun r => s.peerAnswer? r == some .vfGone then .refused 2
  else if reqs.any fun r => s.peerAnswer? r == some .refused then .refused 1
  else if reqs.any fun r => (s.peerAnswer? r).isNone then .wait
  else .all

/-- Perform a held commit to level L, then `fin` once every moved byte has arrived. A refusal by a peer is
PEER_NAK (R260). In a fragment of helper lanes nothing is committed (R34). -/
def Ctx.performCommit (c : Ctx) (L : Nat) (h : Hold) (fin : Ctx → Act) : Act :=
  if c.allHelpers then fin c
  else if !h.arrived && !c.s.commitReady c.r.wave L h.seq then .park c .stall
  else
    let reqs := if h.arrived then h.reqs else (c.out.commit c.r.wave L h.seq false).2
    let c := if h.arrived then c else
      let c' := c.global fun s => (s.commit c.r.wave L h.seq false).1
      let c' := { c' with f := { c'.f with hold := some { h with arrived := true, reqs := reqs } } }
      c'.externalIf (2 ≤ L)
    match c.s.answers reqs with
    | .wait => .park c .peer
    | .refused info => .trap c { cls := .peerNak, info := BitVec.ofNat 32 info }
    | .all => fin { c with s := c.s.writeOutAll c.w.core L }

/-- ACQ.L (R223): it orders, and drops the L1 lines that the core does not own; copies narrower than L are
written outward (R416). -/
def Ctx.acquire (c : Ctx) (L : Nat) : Ctx := { c with s := c.s.writeOutAll c.w.core L }

/-- CMT.L (R208). -/
def execCmt (la v : BitVec 4) (s : State) : Host.Outcome State Fault Refusal :=
  issued s fun c =>
    let L := v.toNat
    c.heldOp { illegal := L == 0 || 5 < L, noRegion := true } (fun c0 => .ok c0.newHold)
      (fun c h => c.performCommit L h fun c => .next c (c.window la []))

/-- ABT.L (R213, R214): the status word goes to S[x]. -/
def execAbt (x : Spec) (la v : BitVec 4) (s : State) : Host.Outcome State Fault Refusal :=
  issued s fun c =>
    let L := v.toNat
    let win := c.window la (specRegs x 1)
    c.heldOp { illegal := 3 < L, noRegion := true, operand := !c.uniRegOk x 1 1, regs := specRegs x 1 }
      (fun c0 => .ok c0.newHold)
      (fun c h =>
        if c.w.pend.any fun p => p.seq < h.seq then .park c .stall
        else
          let status := (c.out.abort c.r.wave L h.seq).2
          let c' := c.global fun s => (s.abort c.r.wave L h.seq).1
          .next (c'.setSpec x status) win)

/-- ACQ.L (R223). -/
def execAcq (la v : BitVec 4) (s : State) : Host.Outcome State Fault Refusal :=
  issued s fun c =>
    let L := v.toNat
    c.heldOp { illegal := L == 0 || 5 < L } (fun c0 => .ok c0.newHold)
      (fun c _ => .next (c.acquire L) (c.window la []))

/-- SYNC.L: CMT.L, then the wait for earlier strong accesses, then ACQ.L (R224); no effect in a fragment of helper lanes
(R34). DEDUCED, log entry 51. -/
def execSync (la v : BitVec 4) (s : State) : Host.Outcome State Fault Refusal :=
  issued s fun c =>
    let L := v.toNat
    c.heldOp { illegal := L == 0 || 5 < L, noRegion := true } (fun c0 => .ok c0.newHold)
      (fun c h => c.performCommit L h fun c => .next (if c.allHelpers then c else c.acquire L) (c.window la []))

/-- A CMT, ABT or SYNC that another fragment of the stream has issued has not taken effect. -/
def Stream.committing (st : Stream) (e : Nat) : Bool :=
  st.live.any fun x => x.1 != e && (x.2.hold.map fun h => commitWord h.word).getD false

/-- CSTAT (R262): the commit status word is read and cleared in one step. DESIGN CHOICE, log entry 91: the level that the
wave's spills have reached (R213) outlives it, so that a later spill counts as having reached the highest so far. -/
def execCstat (d : Spec) (s : State) : Host.Outcome State Fault Refusal :=
  issued s fun c =>
    c.gate { operand := !c.uniRegOk d 1 1, regs := specRegs d 1 } fun c =>
      if c.st.committing c.r.entry then .park c .stall
      else
        let v : Word := (if c.w.conflict then 1 else 0) + (if c.w.spilled then 2 else 0)
        .next ({ c with w := { c.w with conflict := false, spilled := false } }.setSpec d v) none

end Sys2Proof.Machine
end

