-- ==== Sys2Proof/Machine/Barrier.lean ====
section
/-!
DEFINITION. Barrier cells as instructions use them (R174 to R180, R263 to R268).
-/

namespace Sys2Proof.Machine

/-- The offset of the cell that a names. -/
def Ctx.cellOff (c : Ctx) (a : Spec) : Nat := (c.uval a).toNat

/-- The stream holds more than one fragment (R48, R263). -/
def Ctx.forked (c : Ctx) : Bool := 1 < c.st.live.length

/-- A uniform register or an integer constant (R265, R267). -/
def Ctx.uniOrConst (c : Ctx) (x : Spec) : Bool :=
  match x with
  | .s n => c.uniOk n
  | .ic _ => true
  | _ => false

/-- BREMA's x: a uniform register, or one of the constants 0 to 15 that R266 gives; −1 to −8 raise ILLEGAL_OPERAND (R101).
DEDUCED, log entry 80. -/
def Ctx.bremaX (c : Ctx) (x : Spec) : Bool :=
  match x with
  | .ic k => k.val < 16
  | x => c.uniOrConst x

/-- Alignment and range of a cell in a block's scratchpad (R263). -/
def Ctx.cellFault (c : Ctx) (b off : Nat) : Option Trap :=
  let addr : Dword := BitVec.ofNat 64 off
  if off % 16 != 0 then some { cls := .align, addr := addr }
  else if (c.s.block b).scrSize < off + 16 then some { cls := .protection, cause := 1, addr := addr }
  else none

/-- A barrier instruction on the block's own cell: checked at issue, held, then performed (R263). -/
def Ctx.cellOp (c : Ctx) (n : Need) (a : Spec) (perform : Ctx → Hold → Act) : Act :=
  c.heldOp { n with
      operand := n.operand || !c.uniOrZero a
      regs := n.regs ++ specRegs a 1 }
    (fun c0 => match c0.cellFault c0.blockId (c0.cellOff a) with
      | some t => .error (.trap c0 t)
      | none => .ok c0.newHold)
    perform

/-- Wait on a cell for a parity (R180). -/
def Ctx.waitCell (c : Ctx) (off : Nat) (arrival parity : Bool) (w : Option Window) : Act :=
  let stale := fun (h : Nat) => Act.trap c { cls := .handleStale, info := BitVec.ofNat 32 h }
  let done := fun (k : Cell) => Act.next (c.acquire k.acq) w
  match c.block.cell? off with
  | none => c.fail .barrierMismatch
  | some k =>
    if k.arrival != arrival then c.fail .barrierMismatch
    else match c.f.park with
      | some (.cell _ _ true (some h)) => stale h
      | some (.cell _ _ true none) => done k
      | _ =>
        if k.poi then stale k.poiHandle
        else if k.ph != parity then done k
        else .park c (.cell off parity false none)

/-- BINIT (R178, R264). -/
def execBinit (a : Spec) (la : BitVec 4) (r k : BitVec 1) (u : BitVec 2) (s : State) :
    Host.Outcome State Fault Refusal :=
  issued s fun c =>
    let bad := if r == 1#1 then k == 1#1 || u != 0#2 else u == 3#2 || (k == 0#1 && u != 0#2)
    let locked := fun (c : Ctx) =>
      let off := c.cellOff a
      c.coreState.locked 0 c.blockId off (off + 15) true
    c.cellOp { illegal := bad, noRegion := true } a fun c _ =>
      let off := c.cellOff a
      if locked c then .trap c { cls := .rangeLocked, addr := BitVec.ofNat 64 off }
      else if (c.block.cell? off).isSome && 0 < c.s.pkw c.blockId off then
        .trap c { cls := .barrierClobber, addr := BitVec.ofNat 64 off }
      else
        let b := fun (x : Block) =>
          if r == 1#1 then { x with cells := x.cells.filter (·.off != off), scr := x.scr.writes off (List.replicate 16 0) }
          else x.setCell { off := off, arrival := k == 1#1, unit := u.toNat }
        .next { c with s := c.s.updBlock c.blockId b } (c.window la (specRegs a 1))

/-- The phase bit of a cell. -/
def Ctx.phase (c : Ctx) (off : Nat) : Bool := ((c.block.cell? off).map (·.ph)).getD false

/-- A phase bit as a register value. -/
def phaseWord (b : Bool) : Word := if b then 1 else 0

/-- A thread arrival of the issuing wave on the cell of a block, when it performs. -/
def Ctx.arrive (c : Ctx) (b off : Nat) (e : Word) (remote : Bool) (k : Ctx → Act) : Act :=
  match c.out.arriveThread b off e remote with
  | .error cls => c.fail cls
  | .ok s => k (c.reload s)

/-- BARV (R265). -/
def execBarv (x a : Spec) (la : BitVec 4) (s : State) : Host.Outcome State Fault Refusal :=
  issued s fun c =>
    let win := c.window la (specRegs x 1 ++ specRegs a 1)
    c.cellOp
      { illegal := c.forked, noRegion := true, operand := !c.uniRegOk x 1 1 || c.uval x == 0
        regs := specRegs x 1 } a
      fun c _ =>
        let old := c.phase (c.cellOff a)
        c.arrive c.blockId (c.cellOff a) (c.uval x) false fun c => .next (c.setSpec x (phaseWord old)) win

/-- BARW (R265): the arrival once, then the wait on the parity it returned (R268). -/
def execBarw (x a : Spec) (la : BitVec 4) (g : BitVec 2) (s : State) :
    Host.Outcome State Fault Refusal :=
  issued s fun c =>
    let win := c.window la (specRegs x 1 ++ specRegs a 1)
    c.cellOp
      { illegal := c.forked, noRegion := true, operand := !c.uniRegOk x 1 1 || c.uval x == 0 || g != 0#2
        regs := specRegs x 1 } a
      fun c h =>
        let off := c.cellOff a
        if h.arrived then c.waitCell off false (h.lanesDone != 0) win
        else
          let old := c.phase off
          c.arrive c.blockId off (c.uval x) false fun c =>
            let h' := { h with arrived := true, lanesDone := if old then 1 else 0 }
            let c := { c.setSpec x (phaseWord old) with f := { c.f with hold := some h' } }
            c.waitCell off false old win

/-- BWAIT (R265). -/
def execBwait (x a : Spec) (la : BitVec 4) (g : BitVec 2) (s : State) :
    Host.Outcome State Fault Refusal :=
  issued s fun c =>
    c.cellOp { illegal := c.forked, operand := !c.uniOrConst x || g != 0#2, regs := specRegs x 1 } a
      fun c _ => c.waitCell (c.cellOff a) false ((c.uval x).getLsbD 0)
        (c.window la (specRegs x 1 ++ specRegs a 1))

/-- BREMA (R266): one arrival on the cell of a member of the gang. -/
def execBrema (x a : Spec) (la : BitVec 4) (g : BitVec 2) (s : State) :
    Host.Outcome State Fault Refusal :=
  issued s fun c =>
    let off := fun (c : Ctx) => c.cellOff a
    let target := fun (c : Ctx) (k : Nat → Act) =>
      match c.member g.toNat with
      | .absent =>
        let t : Trap := { cls := .protection, cause := 3, addr := BitVec.ofNat 64 (off c) }
        -- ALIGN comes before the missing member (R246, R263)
        Act.trap c (if off c % 16 != 0 then { t with cls := .align, cause := 0 } else t)
      | .wait => .park c .member
      | .block b => match c.cellFault b (off c) with
        | some t => .trap c t
        | none => k b
    c.heldOp
      { illegal := c.forked, noRegion := true
        operand := !c.bremaX x || c.uval x == 0 || !c.uniOrZero a
        regs := specRegs x 1 ++ specRegs a 1 }
      (fun c0 => .error (target c0 fun _ => .hold c0 c0.newHold))
      (fun c _ => target c fun b =>
        c.arrive b (off c) (c.uval x) true fun c => .next c (c.window la (specRegs x 1 ++ specRegs a 1)))

/-- AEXP (R176, R267). -/
def execAexp (x a : Spec) (la : BitVec 4) (s : State) : Host.Outcome State Fault Refusal :=
  issued s fun c =>
    let win := c.window la (specRegs x 1 ++ specRegs a 1)
    let t := c.uval x
    c.cellOp
      { illegal := c.forked, noRegion := true
        operand := !c.uniRegOk x 1 1 || t == 0 || 2 ^ 31 ≤ t.toNat
        regs := specRegs x 1 } a
      fun c _ =>
        let old := c.phase (c.cellOff a)
        match c.out.announce c.blockId (c.cellOff a) (c.uval x) with
        | .error cls => c.fail cls
        | .ok s => .next ((c.reload s).setSpec x (phaseWord old)) win

/-- AWAIT (R267). -/
def execAwait (x a : Spec) (la : BitVec 4) (g : BitVec 2) (s : State) :
    Host.Outcome State Fault Refusal :=
  issued s fun c =>
    c.cellOp { illegal := c.forked, operand := !c.uniOrConst x || g != 0#2, regs := specRegs x 1 } a
      fun c _ => c.waitCell (c.cellOff a) true ((c.uval x).getLsbD 0)
        (c.window la (specRegs x 1 ++ specRegs a 1))

/-- AREL (R176, R267). -/
def execArel (a : Spec) (la : BitVec 4) (s : State) : Host.Outcome State Fault Refusal :=
  issued s fun c =>
    c.cellOp { noRegion := true } a fun c _ =>
      match c.out.release c.blockId (c.cellOff a) with
      | .error cls => c.fail cls
      | .ok s => .next (c.reload s) (c.window la (specRegs a 1))

end Sys2Proof.Machine
end

