-- ==== Sys2Proof/Machine/CopyInstr.lean ====
section
/-!
DEFINITION. Copies as instructions issue and watch them (R269 to R275).
-/

namespace Sys2Proof.Machine

/-- A little-endian field of a byte list. -/
def fieldAt (bs : List Byte) (o n : Nat) : Nat := natOfBytes ((bs.drop o).take n)

/-- The control word of a descriptor (R270). -/
structure CopyCtl where
  ssp : Nat
  ssel : Nat
  dsp : Nat
  dsel : Nat
  esz : Nat
  srev : Bool
  drev : Bool
  bar : Bool
  bcell : Nat
  shnd : Bool
  dhnd : Bool
  rsv : Bool

def CopyCtl.of (w : Word) : CopyCtl :=
  let f := fun (lo len : Nat) => w.toNat / 2 ^ lo % 2 ^ len
  { ssp := f 0 3, ssel := f 3 2, dsp := f 5 3, dsel := f 8 2, esz := 2 ^ f 10 2, srev := w.getLsbD 12
    drev := w.getLsbD 13, bar := w.getLsbD 14, bcell := f 15 14, shnd := w.getLsbD 29
    dhnd := w.getLsbD 30, rsv := w.getLsbD 31 }

/-- A space, selector and handle bit that order 3 of R272 refuses. -/
def badSide (sp sel : Nat) (hnd : Bool) : Bool :=
  4 < sp || (sp == 0 && sel != 0) || (sp == 1 && sel == 3) || (hnd && sp != 1)

/-- The base registers that a side reads. -/
def sideRegs (sp sel : Nat) : List RegId :=
  if 2 ≤ sp then [.s (baseReg sel), .s (baseReg sel + 1)] else []

def bufOfSel (sel : Nat) : Buf := if sel == 0 then .w else if sel == 1 then .a else .c

/-- The handle of a side, where it names one. -/
def sideHandle (hnd : Bool) (off : Nat) : Option Nat := if hnd then some (off / 65536) else none

/-- A side of the copy, its handle's region resolved (R270, R271). -/
def Ctx.side (c : Ctx) (sp sel off : Nat) (hnd rev : Bool) (esz : Nat) (strides : List Nat) : CopySide :=
  let h := sideHandle hnd off
  let e := (h.map fun x => c.coreState.handle (hIdx x)).getD { idx := 0 }
  let o := if hnd then off % 65536 else off
  let base := c.rd.uni64 (baseReg sel)
  let size := if sp == 0 then c.block.scrSize else c.block.typedSize (bufOfSel sel)
  { space := sp
    buf := bufOfSel sel
    origin := match sp with
      | 0 => o
      | 1 => if hnd then e.off + o else o
      | 2 => base.toNat + o
      | 3 => base.toNat + o
      | _ => ((loWord base).toNat + o) % 2 ^ 32
    node := (hiWord base).toNat % 4096
    strides := (if rev then -(esz : Int) else esz) :: strides.map fun x => intOf true 32 x
    handle := h
    limit := match sp with
      | 0 => some (0, size)
      | 1 => if hnd then some (e.off, e.off + e.len) else some (0, size)
      | 2 => some (0, 2 ^ 53)
      | 3 => some (0, 2 ^ 53)
      | _ => none }

/-- The span of a side (R194). -/
def CopySide.span (x : CopySide) (counts : List Nat) (esz blk asid : Nat) : Option Span :=
  (x.bounds counts esz).map fun b =>
    let k := x.lock blk asid
    { space := k.1, owner := k.2, lo := b.1.toNat, hi := b.2.toNat }

/-- A side leaves its allocation, region or space (R272, order 7). -/
def CopySide.outside (x : CopySide) (counts : List Nat) (esz : Nat) : Bool :=
  match x.bounds counts esz, x.limit with
  | some (lo, hi), some (a, b) => lo < (a : Int) || (b : Int) ≤ hi
  | _, _ => false

/-- A side breaks the element alignment (R272, order 6). -/
def CopySide.misaligned (x : CopySide) (esz : Nat) : Bool :=
  x.origin % esz != 0 || x.strides.any fun t => t % esz != 0

/-- The checks of a handle at issue: stale, owner, buffer (R192, R272 order 5). -/
def Ctx.handleFault (c : Ctx) (h : Option Nat) (buf : Buf) : Option Trap :=
  match h with
  | none => none
  | some h =>
    let e := c.coreState.handle (hIdx h)
    if !e.current h then some { cls := .handleStale, info := BitVec.ofNat 32 h }
    else if e.launch != c.launchId then some { cls := .protection, cause := 7 }
    else if e.buf != buf then some { cls := .protection, cause := 2 }
    else none

/-- The spans of two copies, or of a copy and a fill, overlap. -/
def Span.overlaps (a b : Span) : Bool := a.meets b.space b.owner b.lo b.hi

/-- A free entry of the core's copy queue for a wave: its own reserved one, which its slot numbers, else
the first that no resident wave's slot reserves (R273). DEDUCED, log entry 36. -/
def Core.freeEntry (k : Core) (slot : Nat) (slots : List Nat) : Option Nat :=
  let used := fun (i : Nat) => k.copies.any (·.idx == i)
  if !used slot then some slot
  else (List.range Config.copyEntries).find? fun i => !used i && !slots.contains i

/-- The slots of the waves resident on the issuing core. -/
def Ctx.slotsHere (c : Ctx) : List Nat := (c.s.residents c.w.core).map fun w => (c.s.wave w).slot

/-- A copy must wait for the clamp table or for a fill (R195, R272 order 10). -/
def Core.clamped (k : Core) (src dst : Option Span) : Bool :=
  k.copies.any (fun x =>
    (src.toList.any fun a => x.dstSpan.toList.any a.overlaps) ||
    (dst.toList.any fun a => x.dstSpan.toList.any a.overlaps || x.srcSpan.toList.any a.overlaps)) ||
  k.locks.any fun l => dst.toList.any l.span.overlaps

/-- The first number from `i` on, of `n`, that satisfies `p`; `i + n` where none does. -/
def firstFail (p : Nat → Bool) : Nat → Nat → Nat
  | 0, i => i
  | n + 1, i => if p i then i else firstFail p n (i + 1)

/-- The screen of the issuing block is abandoned (R395). -/
def Ctx.unscreened (c : Ctx) : Ctx :=
  if c.block.screen.isSome then c.global fun s => s.unscreen c.r.wave else c

/-- ACPY once its descriptor is read (R272). DEDUCED, log entry 36: an empty copy that counts into a cell stays in flight
until it has settled. -/
def Ctx.issueCopy (c : Ctx) (tok : Nat) (bs : List Byte) (win : Option Window) : Act :=
  let k := CopyCtl.of (BitVec.ofNat 32 (fieldAt bs 60 4))
  let regs := sideRegs k.ssp k.ssel ++ sideRegs k.dsp k.dsel
  if k.rsv || badSide k.ssp k.ssel k.shnd || badSide k.dsp k.dsel k.dhnd then c.fail .illegalOperand
  else match c.f.windows.find? fun w => meets w.regs regs with
  | some w => .trap c { cls := .lookahead, addr := w.pc }
  | none =>
  if (c.w.loads.any fun l => l.slice == c.r.slice && meets l.writes regs) || meets c.owed regs then .park c .stall
  else if (k.ssp == 1 && k.ssel != 2) || (k.dsp == 1 && k.dsel == 2) then c.protect 2
  else
    let soff := fieldAt bs 0 4
    let doff := fieldAt bs 4 4
    match (c.handleFault (sideHandle k.shnd soff) (bufOfSel k.ssel)).orElse fun _ =>
        c.handleFault (sideHandle k.dhnd doff) (bufOfSel k.dsel) with
    | some t => .trap c t
    | none =>
      let counts := (List.range 6).map fun i => fieldAt bs (8 + 2 * i) 2
      let src := c.side k.ssp k.ssel soff k.shnd k.srev k.esz ((List.range 5).map fun i => fieldAt bs (20 + 4 * i) 4)
      let dst := c.side k.dsp k.dsel doff k.dhnd k.drev k.esz ((List.range 5).map fun i => fieldAt bs (40 + 4 * i) 4)
      if src.misaligned k.esz || dst.misaligned k.esz then c.fail .align
      else if src.outside counts k.esz || dst.outside counts k.esz then
        -- the token is marked in error as well, at the first element of the walk that lies outside (R275)
        let bad := fun (x : CopySide) (k' : Nat) => match x.limit with
          | some (lo, hi) => x.addr counts k' < (lo : Int) || (hi : Int) < x.addr counts k' + k.esz
          | none => false
        let first := firstFail (fun i => bad src i || bad dst i) (nestSize counts) 0
        .trap { c with w := { c.w with tokens := c.w.tokens.modify tok fun t => t.fail 1 0 first } }
          { cls := .copyBounds, info := BitVec.ofNat 32 tok }
      else
        let ss := src.span counts k.esz c.blockId c.asid
        let ds := dst.span counts k.esz c.blockId c.asid
        let clobber := match ds with
          | some sp => sp.space == 0 && c.block.tagged sp.lo (sp.hi + 1 - sp.lo)
          | none => false
        if clobber then c.fail .barrierClobber
        else if c.block.shadow && (2 ≤ k.ssp || 2 ≤ k.dsp) then .raw (c.out.unscreen c.r.wave)
        else match c.coreState.freeEntry c.w.slot c.slotsHere with
          | none => .park c .stall
          | some idx =>
            let issuedAs := fun (c' : Ctx) => (
              let c' := { c' with w := { c'.w with eseq := c.w.eseq + 1 } }.externalIf (2 ≤ k.dsp)
              if 2 ≤ k.ssp || 2 ≤ k.dsp then c'.unscreened else c' : Ctx)
            -- an empty copy completes at once; what it counts into a cell waits, as every effect does (R207)
            if nestSize counts == 0 && !k.bar then .next (issuedAs c) win
            else if c.coreState.clamped ss ds then .park c .stall
            else
              let cp : Copy :=
                { idx := idx, wave := c.r.wave, token := tok, src := src, dst := dst
                  counts := counts, esz := k.esz, cell := if k.bar then some (16 * k.bcell) else none
                  srcSpan := ss, dstSpan := ds, eseq := c.w.eseq, slice := c.r.slice, pc := c.f.pc
                  issued := c.s.cycle }
              let use := fun (s : State) (h : Option Nat) => match h with
                | some h => s.addUser c.w.core h
                | none => s
              let s := c.s.updCore c.w.core fun x => { x with copies := x.copies ++ [cp] }
              let s := use (use s src.handle) dst.handle
              let c' : Ctx := { c with
                s := s
                w := { c.w with
                  tokens := c.w.tokens.modify tok fun t => { t with count := t.count + 1, acq := max t.acq dst.level } } }
              .next (issuedAs c') win

/-- ACPY (R269, R272). In a fragment of helper lanes it does nothing (R34). -/
def execAcpy (a : Spec) (la : BitVec 4) (t : BitVec 3) (s : State) : Host.Outcome State Fault Refusal :=
  issued s fun c =>
    let win := c.window la (specRegs a 1)
    c.gate { noRegion := true, operand := !c.uniSrcOk a, regs := specRegs a 1 } fun c =>
      let off := c.cellOff a
      let addr : Dword := BitVec.ofNat 64 off
      if c.allHelpers then .next c win
      else if off % 64 != 0 then .trap c { cls := .align, addr := addr }
      else if c.block.scrSize < off + 64 then .trap c { cls := .protection, cause := 1, addr := addr }
      else if c.coreState.locked 0 c.blockId off (off + 63) false then .trap c { cls := .rangeLocked, addr := addr }
      else
        let r := c.s.loadBytes c.r.wave none (.scr c.blockId) off 64
        if r.2 then .consume c (c.s.loadMark c.r.wave none (.scr c.blockId) off 64) else c.issueCopy t.toNat r.1 win

/-! Waiting and polling (R275). -/

/-- The tokens that a mask names. -/
def maskTokens (m : Word) : List Nat := (List.range 8).filter fun i => m.getLsbD i

/-- The checks of CWAIT and CPOLL. -/
def Ctx.tokenNeed (c : Ctx) (x a : Spec) : Need :=
  { operand := !c.uniRegOk x 1 1 || !c.uniSrcOk a || 256 ≤ (c.uval a).toNat
    regs := specRegs x 1 ++ specRegs a 1 }

def Wave.token (w : Wave) (i : Nat) : Token := w.tokens.getD i {}

/-- A word with a bit for each token of a list that satisfies `p`. -/
def tokenBits (w : Wave) (l : List Nat) (p : Token → Bool) : Word :=
  BitVec.ofNat 32 (l.foldl (fun n i => n + if p (w.token i) then 2 ^ i else 0) 0)

/-- What completes on tokens acquires for the bytes of their completed copies (R229). -/
def Ctx.acquireTokens (c : Ctx) (l : List Nat) : Ctx :=
  c.acquire (((l.map c.w.token).filter (·.count == 0)).foldl (fun n t => max n t.acq) 0)

/-- CWAIT (R275). -/
def execCwait (x a : Spec) (la : BitVec 4) (s : State) : Host.Outcome State Fault Refusal :=
  issued s fun c => c.gate (c.tokenNeed x a) fun c =>
    let l := maskTokens (c.uval a)
    if l.any fun i => (c.w.token i).count != 0 then .park c .copies
    else
      let bits := tokenBits c.w l (·.err)
      let w := { c.w with tokens := c.w.tokens.mapIdx fun i t => if l.contains i then { t with err := false } else t }
      .next (({ c.acquireTokens l with w := w } : Ctx).setSpec x bits) (c.window la (specRegs x 1 ++ specRegs a 1))

/-- CPOLL (R275). -/
def execCpoll (x a : Spec) (la : BitVec 4) (s : State) : Host.Outcome State Fault Refusal :=
  issued s fun c => c.gate (c.tokenNeed x a) fun c =>
    let l := maskTokens (c.uval a)
    let v := tokenBits c.w l (·.count == 0) ||| (tokenBits c.w l (·.err) <<< 8)
    .next ((c.acquireTokens l).setSpec x v) (c.window la (specRegs x 1 ++ specRegs a 1))

/-- CPOLL.e (R275): the error word of one token, which is cleared with its flag. -/
def execCpollE (x a : Spec) (la : BitVec 4) (s : State) : Host.Outcome State Fault Refusal :=
  issued s fun c =>
    c.gate
      { operand := !c.uniRegOk x 2 2 || !c.uniSrcOk a || 8 ≤ (c.uval a).toNat
        regs := specRegs x 2 ++ specRegs a 1 }
      fun c =>
        let i := (c.uval a).toNat
        let t := c.w.token i
        let lo : Word := BitVec.ofNat 32 (t.code % 16 + 16 * (t.cause % 8))
        let w := { c.w with tokens := c.w.tokens.modify i fun t =>
          { t with err := false, code := 0, cause := 0, index := 0 } }
        .next ({ c with w := w }.setSpec64 x (pair lo t.index)) (c.window la (specRegs x 2 ++ specRegs a 1))

/-- COPY_COMPLETE (R274): once the copy has settled; before that it has not begun (R275), and earlier loads
and stores of its wave come first (R227, R284); it does not wait for a store that a commit keeps back, since that commit
may wait for the copy's span (R231). DEDUCED, log entry 36. -/
def State.copyEvent (s : State) (core idx : Nat) : State :=
  match (s.core core).copies.find? (·.idx == idx) with
  | none => s
  | some c =>
    let w := s.wave c.wave
    if c.issued + Config.settle ≤ s.cycle && (w.loads.all fun l => c.issued ≤ l.issued) &&
        (w.pend.all fun p => c.issued ≤ p.issued || w.keptBack p)
    then ((s.copyComplete core idx).sweepBlock w.block).goEnd (s.launchOf c.wave) else s

end Sys2Proof.Machine
end

