-- ==== Sys2Proof/Machine/Engine.lean ====
section
/-!
DEFINITION. Stream engines: SSTART, SSTOP and SSTAT (R276 to R279) and the commands of a stream program
(R181 to R187, R230, R295 to R301).
-/

namespace Sys2Proof.Machine

/-! The stream instructions (R276 to R279). -/

/-- Engine and context of a selector (R276). -/
def selEngine (sel : Word) : Nat := sel.toNat % 32
def selContext (sel : Word) : Nat := sel.toNat / 32 % 8

/-- The selector has a reserved bit set. -/
def selBad (sel : Word) : Bool := sel.toNat / 256 != 0

/-- The function's allowance includes the context (R276, R365, R368). -/
def State.allows (s : State) (fn : Nat) (sel : Word) : Bool :=
  let f := s.function fn
  !isVf fn || (f.scb ≤ selContext sel && selContext sel < f.scb + f.scn)

/-- PROTECTION with cause 0 where the allowance does not include the context. -/
def Ctx.allowance (c : Ctx) (sel : Word) : Option Trap :=
  if c.s.allows c.fn sel then none else some { cls := .protection }

/-- SSTART (R277): the context is bound and the program starts, unless it was bound already. DEDUCED, log entry 44. -/
def execSstart (x a : Spec) (la : BitVec 4) (s : State) : Host.Outcome State Fault Refusal :=
  issued s fun c =>
    let win := c.window la (specRegs x 2 ++ specRegs a 2)
    c.heldOp
      { noRegion := true
        operand := !c.uniRegOk x 2 2 || !c.uniRegOk a 2 2 || selBad (c.uval x)
        regs := specRegs x 2 ++ specRegs a 2
        post :=
          let addr := c.uval64 a
          if addr.toNat % 16 != 0 then some { cls := .align, addr := addr }
          else if Config.addressTop ≤ addr.toNat then some { cls := .protection, cause := 1, addr := addr }
          else c.allowance (c.uval x) }
      (fun c0 => .ok c0.newHold)
      (fun c _ =>
        let sel := c.uval x
        let addr := c.uval64 a
        match c.s.xctx? (selEngine sel) (selContext sel) with
        | some _ => .next (c.setSpec64 x 1) win
        | none =>
          let n := c.w.eseq
          let e : XCtx :=
            { engine := selEngine sel, k := selContext sel, launch := c.launchId, pc := addr.toNat, seq := n
              site := c.r, sitePc := c.f.pc }
          let c1 : Ctx := { c with
            s := { c.s with engines := c.s.engines ++ [e] }, w := { c.w with eseq := n + 65536 } }
          .next (c1.external.setSpec64 x (pair 0 n)) win)

/-- SSTOP (R278): a command that has locked its slot and goes on, or has written something, completes first. -/
def execSstop (x : Spec) (la : BitVec 4) (s : State) : Host.Outcome State Fault Refusal :=
  issued s fun c =>
    let win := c.window la (specRegs x 1)
    c.heldOp
      { noRegion := true, operand := !c.uniRegOk x 1 1 || selBad (c.uval x), regs := specRegs x 1
        post := c.allowance (c.uval x) }
      (fun c0 => .ok c0.newHold)
      (fun c _ =>
        let e := selEngine (c.uval x)
        let k := selContext (c.uval x)
        match c.s.xctx? e k with
        | none => .next (c.setSpec x 1) win
        | some y =>
          if y.launch != c.launchId then c.protect 0
          else
            let stopped := fun (status : Word) => Act.next ({ c with s := c.s.unbind e k }.setSpec x status) win
            match y.phase with
            | .faulted _ => stopped 2
            | _ => if y.committed then .park c .stall else stopped 0)

/-- The status image of a context as a launch reads it (R279). -/
def State.engineStatus (s : State) (lid e k : Nat) : Dword :=
  match s.xctx? e k with
  | none => 0
  | some y =>
    if y.launch != lid then 0
    else
      let st : Nat × Nat := match y.phase with
        | .faulted code => (3, code)
        | .parked => (2, 0)
        | _ => (1, 0)
      let slots := (y.slots.map (·.idx + 1)).foldl max 0
      pair (BitVec.ofNat 32 (st.1 + 4 + 16 * st.2 + 256 * slots)) y.seq

/-- SSTAT (R279). -/
def execSstat (x a : Spec) (la : BitVec 4) (s : State) : Host.Outcome State Fault Refusal :=
  issued s fun c =>
    let regs := specRegs x 2 ++ specRegs a 1
    c.heldOp
      { operand := !c.uniRegOk x 2 2 || !c.uniSrcOk a || selBad (c.uval a), regs := regs
        post := c.allowance (c.uval a) }
      (fun c0 => .ok c0.newHold)
      (fun c _ =>
        .next (c.setSpec64 x (c.s.engineStatus c.launchId (selEngine (c.uval a)) (selContext (c.uval a))))
          (c.window la regs))

/-! Commands. -/

/-- What a command comes to. -/
inductive CmdAct
  /-- It completes in sequence. -/
  | next (s : State) (x : XCtx)
  /-- It completes, and the program goes on at `pc`. -/
  | jump (s : State) (x : XCtx) (pc : Nat)
  /-- It waits at its place, in the phase of `x`. -/
  | wait (s : State) (x : XCtx)
  /-- The program stops with an engine fault (R187), at an address where the command has one. -/
  | fault (s : State) (code : Nat) (addr : Int := 0)
  /-- It completes, and so does everything up to the command at `last`, which the program skips (R298). -/
  | skip (s : State) (x : XCtx) (last : Nat)
  /-- The context unbinds. -/
  | halt (s : State)

/-- The pass end of R298 at the last body command: the loops that stay and the next PC. -/
def xPass (pc : Nat) : List XLoop → List XLoop × Nat
  | [] => ([], pc + 16)
  | l :: t =>
    if l.last != pc then (l :: t, pc + 16)
    else if l.i + 1 < l.count then ({ l with i := l.i + 1 } :: t, l.first)
    else xPass pc t

/-- A stream context whose program has come to the end of the command at `pc`. -/
def XCtx.endsAt (x : XCtx) (pc : Nat) : XCtx :=
  let r := xPass pc x.loops
  { x with pc := r.2, loops := r.1, seq := x.seq + 1, phase := .running, xlate := none }

/-- The state that a command leaves. -/
def CmdAct.state (e k : Nat) : CmdAct → State
  | .next s x =>
    s.updXctx e k fun _ => x.endsAt x.pc
  | .jump s x pc =>
    s.updXctx e k fun _ => { x with
      pc := pc, loops := x.loops.filter fun l => l.first ≤ pc && pc ≤ l.last
      seq := x.seq + 1, phase := .running, xlate := none }
  | .wait s x => s.updXctx e k fun _ => x
  | .skip s x last => s.updXctx e k fun _ => x.endsAt last
  | .fault s code addr => s.engineFault e k code (BitVec.ofInt 64 addr)
  | .halt s => s.unbind e k

/-- The meaning of a command: what its body does for the stream context that executes it; a faulted
context executes nothing more. -/
def commanded (s : State) (body : State → XCtx → CmdAct) : Host.Outcome State Fault Refusal :=
  match s.issuer with
  | .engine e k =>
    match s.xctx? e k with
    | none => .refused .noIssuer
    | some x =>
      match x.phase with
      | .faulted _ => .next s
      | _ => .next ((body s x).state e k)
  | _ => .refused .noIssuer

/-- XLOOP (R298). A body skipped that ends with enclosing bodies ends their pass. -/
def execXloop (k : BitVec 3) (len : BitVec 8) (count : Word) (s : State) : Host.Outcome State Fault Refusal :=
  commanded s fun s x =>
    let n := if len == 0#8 then 256 else len.toNat
    let last := x.pc + 16 * n
    if 6 ≤ k.toNat || (x.loops.any (·.k == k.toNat)) then .fault s 1
    else if (x.loops.head?.map fun l => decide (l.last < last)).getD false then .fault s 1
    else if count == 0 then .skip s x last
    else .jump s { x with loops :=
      { k := k.toNat, i := 0, count := count.toNat, first := x.pc + 16, last := last } :: x.loops } (x.pc + 16)

/-- XSTRIDE (R297). -/
def execXstride (k : BitVec 3) (lo hi ds : Word) (s : State) : Host.Outcome State Fault Refusal :=
  commanded s fun s x =>
    let v := pair lo hi
    if k.toNat ≤ 5 then .next s { x with ss := x.ss.set k.toNat v, ds := x.ds.set k.toNat ds }
    else if ds != 0 then .fault s 1
    else if Config.addressTop ≤ v.toNat then .fault s 6 v.toNat
    else if k == 6#3 then .next s { x with sb := v.toNat }
    else .next s { x with cb := v.toNat }

/-- XSLOT (R297). -/
def execXslot (slot : BitVec 4) (kind : BitVec 2) (blk off : Word) (cell : BitVec 14) (len : BitVec 18)
    (s : State) : Host.Outcome State Fault Refusal :=
  commanded s fun s x =>
    if kind == 3#2 || (kind == 2#2 && (off.toNat / 65536 != 0 || len != 0#18)) then .fault s 1
    else
      let d : Slot :=
        { idx := slot.toNat, kind := kind.toNat, block := blk.toNat, off := off.toNat
          len := 32 * len.toNat, cell := 16 * cell.toNat }
      .next s { x with slots := x.slots.filter (·.idx != slot.toNat) ++ [d] }

/-- XJUMP (R298). -/
def execXjump (off : Word) (s : State) : Host.Outcome State Fault Refusal :=
  commanded s fun s x => .jump s x (((x.pc : Int) + 16 * off.toInt) % 2 ^ 64).toNat

/-- XHALT (R301): every earlier command has completed when a command executes. -/
def execXhalt (s : State) : Host.Outcome State Fault Refusal :=
  commanded s fun s _ => .halt s

/-- XFENCE (R301). -/
def execXfence (s : State) : Host.Outcome State Fault Refusal :=
  commanded s fun s x => .next s x

/-! Slots and transfers (R182, R297 to R300). -/

/-- A slot as a command finds it: its block and core, the region and its cell. -/
structure Fill where
  block : Nat
  core : Nat
  place : Place
  off : Nat
  len : Nat
  cell : Nat
  handle : Option Nat := none
  deriving DecidableEq, Repr

/-- The block that a slot names, shadows apart. -/
def State.slotBlock (s : State) (lid index : Nat) : Option Nat :=
  (List.range s.blocks.length).find? fun b =>
    (s.block b).launch == lid && (s.block b).index == index && !(s.block b).shadow

/-- Resolve a slot (R297). A handle is checked at command start, not once the command is a user of it. -/
def State.fill (s : State) (x : XCtx) (slot : BitVec 4) : Except CmdAct Fill :=
  match x.slots.find? (·.idx == slot.toNat) with
  | none => .error (.fault s 1)
  | some d =>
    match s.slotBlock x.launch d.block with
    | none => .error (.wait s { x with phase := .parked })
    | some b =>
      let k := s.block b
      match k.phase with
      | .retired | .ended => .error (.fault s 6)
      | .waiting | .saved => .error (.wait s { x with phase := .parked })
      | .resident =>
        if d.kind == 2 then
          let e := (s.core k.core).handle (hIdx d.off)
          if !x.locked && x.user.isNone && (!e.current d.off || e.launch != x.launch) then .error (.fault s 4)
          else if e.buf != .w then .error (.fault s 2 e.off)
          else .ok { block := b, core := k.core, place := .typed e.block .w, off := e.off, len := e.len
                     cell := d.cell, handle := some d.off }
        else
          let u : Buf := if d.kind == 0 then .w else .a
          if k.typedSize u < d.off + d.len then .error (.fault s 6 d.off)
          else .ok { block := b, core := k.core, place := .typed b u, off := d.off, len := d.len, cell := d.cell }

/-- A command that fills through a handle is a user of it from its start, also while it waits (R190). -/
def State.useHandle (s : State) (x : XCtx) (f : Fill) : State × XCtx :=
  match x.user, f.handle with
  | none, some h =>
    let user := some (f.core, h)
    ((s.addUser f.core h).updXctx x.engine x.k fun y => { y with user := user }, { x with user := user })
  | _, _ => (s, x)

/-- The source of an offset word: SB, the strides of the active loops, the offset (R299). -/
def XCtx.srcAt (x : XCtx) (off : Word) : Int :=
  x.loops.foldl (fun a l => a + (l.i : Int) * (x.ss.getD l.k 0).toInt) ((x.sb : Int) + off.toInt)
/-- The destination offset that the active loops give. -/
def XCtx.dstAt (x : XCtx) : Int :=
  x.loops.foldl (fun a l => a + (l.i : Int) * (x.ds.getD l.k 0).toInt) 0

/-- A byte that a transfer moves: source address and offset in the region. -/
abbrev Move := Int × Int

/-- The unskipped bytes of rows that start at `row r`, in order (R299). -/
def XCtx.moves (x : XCtx) (row : Nat → Int) (dp nb nr : Nat) : List Move :=
  (List.range nr).flatMap fun r => (List.range nb).filterMap fun (c : Nat) =>
    let sa := row r + (c : Int)
    if x.cb != 0 && (x.cb : Int) ≤ sa then none else some (sa, x.dstAt + ((r * dp + c : Nat) : Int))

/-- A byte read for a transfer: offset in the region, value, poison. -/
abbrev Moved := Nat × Byte × Bool

/-- What reading the sources comes to: every byte, a miss at an address, or the bytes before a fault. -/
inductive Gathered
  | all (bs : List Moved)
  | miss (va : Nat)
  | bad (bs : List Moved) (va : Nat)

/-- An address as the launch of a context reads it under its ASID, in device or host memory as its leaf has it, at
d (R181, R230). -/
def State.engineRead (s : State) (x : XCtx) (va : Nat) : Xlat × Place :=
  let l := s.launch x.launch
  s.reach l.fn l.asid { priv := l.priv } va

/-- Read the sources in order. -/
def State.gatherMoves (s : State) (x : XCtx) : List Move → Gathered
  | [] => .all []
  | (sa, da) :: t =>
    match s.engineRead x sa.toNat with
    | (.miss, _) => .miss sa.toNat
    | (.fault _, _) => .bad [] sa.toNat
    | (.ok pa, p) =>
      let m : Moved := (da.toNat, s.readPlace p pa, s.poisoned p pa)
      match s.gatherMoves x t with
      | .all bs => .all (m :: bs)
      | .bad bs va => .bad (m :: bs) va
      | g => g

/-- Park a context on a translation (R185, R200). -/
def State.engineMiss (s : State) (x : XCtx) (va : Nat) (write : Bool) : CmdAct :=
  let l := s.launch x.launch
  let r := s.parkFault (x.engine / 8) l.fn l.asid va write (.engine x.engine x.k)
  .wait r.1 { x with phase := .parked, xlate := r.2 }

/-- Write the bytes of a transfer at offset `base` of a place; a poisoned source marks its destination
sector, a wholly written clean one loses its mark (R396, R397). -/
def State.writeMoves (s : State) (p : Place) (base : Nat) (bs : List Moved) : State :=
  let s := bs.foldl (fun s m => s.writePlace p (base + m.1) m.2.1) s
  let secs := (bs.map fun m => (base + m.1) / 32).eraseDups
  secs.foldl (fun s k =>
    let mine := bs.filter fun m => (base + m.1) / 32 == k
    let key : SecKey := { place := p, idx := k }
    if mine.any (·.2.2) then s.setPoison key true
    else if distinct (mine.map (·.1)) == 32 then s.setPoison key false else s) s

/-- The lock of a fill: waits while the cell is FULL, the table full, or a copy's span overlaps (R182). -/
def State.lockFill (s : State) (x : XCtx) (f : Fill) (lo n : Nat) : Option State :=
  let k := s.core f.core
  let sp := lockSpace f.place
  let span : Span := { space := sp.1, owner := sp.2, lo := lo, hi := lo + n - 1 }
  let full := (((s.block f.block).cell? f.cell).map (·.full)).getD false
  if full || Config.fillLocks ≤ k.locks.length ||
      k.copies.any (fun c => (c.srcSpan.toList ++ c.dstSpan.toList).any fun a => a.meets span.space span.owner span.lo span.hi)
  then none
  else
    some (s.updCore f.core fun c =>
      { c with locks := c.locks ++ [{ engine := x.engine, context := x.k, span := span }] })

/-- Count a transfer into its cell unless NC is set (R177, R299); the fault where the cell is no
arrival-kind cell. -/
def State.countFill (s : State) (x : XCtx) (f : Fill) (base : Nat) (nc : Bool) (das : List Nat) :
    Except Nat State :=
  if nc then .ok s
  else
    let bytes := distinct das
    let units := match ((s.block f.block).cell? f.cell).map (·.unit) with
      | some 1 => bytes
      | some 2 => distinct (das.map fun d => (base + d) / 32)
      | _ => 0
    let l := s.launch x.launch
    match s.countUnits f.block f.cell units with
    | none => .error 5
    | some s => .ok (s.count l.fn l.asid 10 bytes)

/-- A fill stopped by a forced invalidation: what its complete sectors, the bytes at `das`, hold stays written and is
counted, the cell is poisoned for the handle and its waves wake (R193). -/
def State.poisonFill (s : State) (x : XCtx) (f : Fill) (base : Nat) (nc : Bool) (das : List Nat) (h : Nat) : State :=
  let s := match (if das.isEmpty then .ok s else s.countFill x f base nc das : Except Nat State) with
    | .ok t => t
    | .error _ => s
  (s.updBlock f.block fun b => b.poison (f.cell / 16 * 16) h).wakeCell f.block (f.cell / 16 * 16) (some h)

/-- How many moves of a list lie in its first `q` destination sectors, `cur` being the sector of the move before
it: the place at which a fill stops or pauses (R193). -/
def sectorMoves (base : Nat) : Nat → Option Int → List Move → Nat
  | _, _, [] => 0
  | q, cur, m :: t =>
    let k : Int := ((base : Int) + m.2) / 32
    if cur == some k then 1 + sectorMoves base q cur t
    else match q with
      | 0 => 0
      | q + 1 => 1 + sectorMoves base q (some k) t

/-- Lock, write and count the moves of a transfer into `place` at `base` (R299). The lock spans
[lo, lo + n). It is taken in one step and the bytes are written and counted in a later one, unless the surroundings
have the engine pause at a sector boundary, where a forced invalidation then stops it (R193). -/
def State.transfer (s : State) (x : XCtx) (f : Fill) (place : Place) (base lo n : Nat) (nc : Bool)
    (ms : List Move) : CmdAct :=
  let u := s.useHandle x f
  let s := u.1
  let x := u.2
  match x.stale with
  | some h => .fault (s.poisonFill x f base nc ((ms.take x.written).map (·.2.toNat)) h) 4
  | none =>
    if !ms.isEmpty && !x.locked then
      match s.lockFill x { f with place := place } lo n with
      | none => .wait s { x with phase := .parked }
      | some s => .wait s { x with phase := .running, locked := true }
    else
      let rest := ms.drop x.written
      let n := x.quota.elim rest.length fun q => sectorMoves base q none rest
      match s.gatherMoves x (rest.take n) with
      | .miss va => s.engineMiss x va false
      | .bad bs va => .fault (s.writeMoves place base bs) 3 va
      | .all bs =>
        let s := s.writeMoves place base bs
        if n < rest.length then .wait s { x with phase := .running, written := x.written + n, quota := none } else
        match s.countFill x f base nc (ms.map (·.2.toNat)) with
        | .error code => .fault s code f.cell
        | .ok s =>
          .next (s.unlockFill x.engine x.k)
            { x with locked := false, user := none, stale := none, written := 0, quota := none }

/-- Every move lies inside the region and the address space (R299). -/
def movesOk (len : Nat) (ms : List Move) : Bool :=
  ms.all fun m => 0 ≤ m.1 && m.1 < (Config.addressTop : Int) && 0 ≤ m.2 && m.2 < (len : Int)

/-- The address of the first move that does not. -/
def movesAt (len : Nat) (ms : List Move) : Int := ((ms.find? fun m => !movesOk len [m]).map (·.1)).getD 0

/-- The destination pitch (R299). -/
def pitchOf (dp : BitVec 8) (nb : BitVec 16) : Nat := if dp == 0#8 then nb.toNat else 16 * dp.toNat

/-- XFER (R299). -/
def execXfer (slot : BitVec 4) (nc : Bool) (dp : BitVec 8) (soff : Word) (nb nr : BitVec 16) (sp : Word)
    (s : State) : Host.Outcome State Fault Refusal :=
  commanded s fun s x =>
    match s.fill x slot with
    | .error a => a
    | .ok f =>
      if nb == 0#16 || nr == 0#16 then .next s x
      else
        let ms := x.moves (fun r => x.srcAt soff + (r : Int) * sp.toInt) (pitchOf dp nb) nb.toNat nr.toNat
        if !x.locked && !movesOk f.len ms then .fault s 6 (movesAt f.len ms)
        else s.transfer x f f.place f.off f.off f.len nc ms

/-- The index list of an XGATHER: `n` words from an address, or why it cannot be read. -/
def State.gatherIndex (s : State) (x : XCtx) (va : Nat) : Nat → Except CmdAct (List Word)
  | 0 => .ok []
  | n + 1 =>
    if Config.addressTop ≤ va then .error (.fault s 6 va)
    else match s.engineRead x va with
      | (.miss, _) => .error (s.engineMiss x va false)
      | (.fault _, _) => .error (.fault s 3 va)
      | (.ok pa, p) =>
        match s.gatherIndex x (va + 4) n with
        | .error a => .error a
        | .ok t => .ok (BitVec.ofNat 32 (natOfBytes (s.readBytes p pa 4)) :: t)

/-- XGATHER (R300). -/
def execXgather (slot : BitVec 4) (nc : Bool) (dp : BitVec 8) (ioff : Word) (nb nr : BitVec 16) (ip : Word)
    (s : State) : Host.Outcome State Fault Refusal :=
  commanded s fun s x =>
    match s.fill x slot with
    | .error a => a
    | .ok f =>
      let list := x.srcAt ioff
      if list % 4 != 0 || list < 0 then .fault s 6 list
      else if nb == 0#16 || nr == 0#16 then .next s x
      else
        let u := s.useHandle x f
        let s := u.1
        let x := u.2
        match s.gatherIndex x list.toNat nr.toNat with
        | .error a => a
        | .ok idx =>
          let row := fun (r : Nat) => (x.sb : Int) + ((idx.getD r 0).toNat : Int) * ip.toInt
          let ms := x.moves row (pitchOf dp nb) nb.toNat nr.toNat
          -- the list is read anew at every step of the command
          if !movesOk f.len ms then .fault s 6 (movesAt f.len ms)
          else s.transfer x f f.place f.off f.off f.len nc ms

/-- XSCALE (R300): into the scratchpad of the slot's block. Through a slot of kind 2 it is a user of the slot's handle, as
an engine operation that names it (R190). It locks the scratchpad bytes that it writes, and not the slot's region:
R182 registers the slot's range, and R300 has XSCALE lock as XFER does. DEDUCED and DESIGN CHOICE, log entry 74. -/
def execXscale (slot : BitVec 4) (nc : Bool) (soff doff : Word) (nb : BitVec 16) (s : State) :
    Host.Outcome State Fault Refusal :=
  commanded s fun s x =>
    match s.fill x slot with
    | .error a => a
    | .ok f =>
      let n := nb.toNat
      let d := doff.toNat
      let b := s.block f.block
      let ms : List Move := (List.range n).map fun (i : Nat) => (x.srcAt soff + (i : Int), (i : Int))
      if n % 32 != 0 || n < 32 || 4096 < n || d % 32 != 0 then .fault s 1
      else if !x.locked && (!movesOk n ms || b.scrSize < d + n) then .fault s 6 (if movesOk n ms then (d : Int) else movesAt n ms)
      else if !x.locked && b.tagged d n then .fault s 5 d
      else s.transfer x f (.scr f.block) d d n nc ms

/-! The rest (R301). -/

/-- XARRIVE (R301). -/
def execXarrive (slot : BitVec 4) (units : Word) (s : State) : Host.Outcome State Fault Refusal :=
  commanded s fun s x =>
    match s.fill x slot with
    | .error a => a
    | .ok f =>
      match (s.block f.block).cell? f.cell with
      | none => .fault s 5 f.cell
      | some c =>
        if !c.arrival then .fault s 5 f.cell
        else if c.unit == 0 && units != 0 then .fault s 1
        else match s.countUnits f.block f.cell (if c.unit == 0 then 1 else units.toNat) with
          | none => .fault s 5 f.cell
          | some s => .next s x

/-- The address of an XWAIT or XFLAG, 4-aligned and inside the address space (R301). -/
def XCtx.flagAt (x : XCtx) (off : Word) : Option Nat :=
  let a := (x.sb : Int) + off.toInt
  if a % 4 != 0 || a < 0 || (Config.addressTop : Int) ≤ a then none else some a.toNat

/-- XWAIT: one poll; while the test fails the program waits at the command (R301). -/
def xwaitOnce (cond : BitVec 2) (off value mask : Word) (s : State) (x : XCtx) : CmdAct :=
  if cond == 3#2 then .fault s 1
  else match x.flagAt off with
    | none => .fault s 6 ((x.sb : Int) + off.toInt)
    | some va =>
      match s.engineRead x va with
      | (.miss, _) => s.engineMiss x va false
      | (.fault _, _) => .fault s 3 va
      | (.ok pa, p) =>
        let w : Word := BitVec.ofNat 32
          (natOfBytes ((List.range 4).map fun i => s.homeByte x.launch p (pa + i))) &&& mask
        let holds := if cond == 0#2 then w == value else if cond == 1#2 then w != value else value ≤ w
        if holds then .next s x else .wait s { x with phase := .waiting, xlate := none }

/-- XWAIT (R301). -/
def execXwait (cond : BitVec 2) (off value mask : Word) (s : State) : Host.Outcome State Fault Refusal :=
  commanded s (xwaitOnce cond off value mask)
/-- A poll of a waiting XWAIT (R301). -/
def execXwaitPoll (cond : BitVec 2) (off value mask : Word) (s : State) :
    Host.Outcome State Fault Refusal :=
  commanded s (xwaitOnce cond off value mask)

/-- XFLAG (R301): final at d, as a strong store at device scope. -/
def execXflag (off value : Word) (s : State) : Host.Outcome State Fault Refusal :=
  commanded s fun s x =>
    match x.flagAt off with
    | none => .fault s 6 ((x.sb : Int) + off.toInt)
    | some va =>
      let l := s.launch x.launch
      match s.translate none l.fn l.asid { write := true, priv := l.priv } va with
      | .miss => s.engineMiss x va true
      | .fault _ => .fault s 3 va
      | .ok pa =>
        .next ((List.range 4).foldl (fun s i => s.writeHome x.launch .dev (pa + i) ((bytesOfWord value).getD i 0)) s) x

/-- An unassigned command code, or a reserved bit that is set (R296). -/
def execUnassignedCommandCode (_word : Word) (s : State) : Host.Outcome State Fault Refusal :=
  commanded s fun s _ => .fault s 1

end Sys2Proof.Machine
end

