-- ==== Sys2Proof/Machine/Messages.lean ====
section
/-!
DEFINITION. Virtual time as programs use it: TIME, timers, arrival queues, messages to contexts, nodes
and the host, and patience contracts (R304 to R308, R347 to R358, R371, R379).
-/

namespace Sys2Proof.Machine

/-! TIME and the timers (R304 to R306, R347). -/

/-- TIME (R304): #0 reads VTIME, #1 reads real ticks at host privilege. -/
def execTime (d : Spec) (t : BitVec 1) (s : State) : Host.Outcome State Fault Refusal :=
  issued s fun c =>
    let real := t == 1#1
    c.gate { operand := !c.uniRegOk d 2 2, priv := real && c.priv < 2, regs := specRegs d 2 } fun c =>
      .next (c.setSpec64 d (BitVec.ofNat 64 (if real then c.s.ticks else c.context.vns))) none

/-- The waves of a context, with their numbers. -/
def State.wavesOf (s : State) (fn asid : Nat) : List Nat :=
  (List.range s.waves.length).filter fun w =>
    let l := s.launch (s.launchOf w)
    l.fn == fn && l.asid == asid && !(s.wave w).retired

/-- TIMER is due in a stream at its next boundary (R305). -/
def Wave.dueTimer (w : Wave) (sl : Slice) (n : Nat) (low : Word) : Wave :=
  w.setStream sl { w.stream sl with timers := (w.stream sl).timers ++ [(n, low)] }

/-- The fragments that wait for a timer wake (R306). -/
def Wave.wakeTimer (w : Wave) (n : Nat) : Wave :=
  w.mapFrags fun f => if f.park == some (.timer n false) then { f with park := some (.timer n true) } else f

/-- A timer fires (R305): its TWAITs wake, and TIMER is due in a live owner stream when TE is set. -/
def State.fireTimer (s : State) (fn asid n : Nat) : State :=
  let c := s.context fn asid
  let t := c.timers.getD n {}
  if !(t.armed && t.deadline.toNat ≤ c.vns) then s
  else
    let s := s.updContext fn asid fun c =>
      { c with timers := c.timers.set n { t with armed := false, fired := true } }
    let s := (s.wavesOf fn asid).foldl (fun s w => (s.updWave w fun x => x.wakeTimer n).input w (.fire n)) s
    match t.owner with
    | some (w, sl) =>
      if t.te && !((s.wave w).stream sl).ended then
        (s.updWave w fun x => x.dueTimer sl n (BitVec.ofNat 32 c.vns)).input w
          (.timer sl n (BitVec.ofNat 32 c.vns))
      else s
    | none => s

/-- TARM (R305): a deadline already passed fires at once. -/
def execTarm (a b : Spec) (s : State) : Host.Outcome State Fault Refusal :=
  issued s fun c =>
    c.heldOp
      { noRegion := true
        operand := !c.uniSrcOk a || !c.uniRegOk b 2 2 || (c.uval a).toNat / 8 != 0
        regs := specRegs a 1 ++ specRegs b 2 }
      (fun c0 => .ok c0.newHold)
      (fun c _ =>
        let n := (c.uval a).toNat % 4
        let d := c.uval64 b
        let t : Timer :=
          { deadline := d, armed := d != 0, te := (c.uval a).getLsbD 2, owner := some (c.r.wave, c.r.slice) }
        let s := c.s.updContext c.fn c.asid fun x => { x with timers := x.timers.set n t }
        let c1 := ({ c with s := s } : Ctx).global fun s => s.fireTimer c.fn c.asid n
        .next c1 none)

/-- TWAIT (R306). -/
def execTwait (d a : Spec) (s : State) : Host.Outcome State Fault Refusal :=
  issued s fun c =>
    let n := (c.uval a).toNat
    c.gate
      { operand := !c.uniRegOk d 1 1 || !c.uniSrcOk a || 3 < n, regs := specRegs d 1 ++ specRegs a 1 }
      fun c =>
        let t := c.context.timers.getD n {}
        if c.f.park == some (.timer n true) || t.fired then .next (c.setSpec d 0) none
        else if !t.armed then .next (c.setSpec d 1) none
        else .park c (.timer n false)

/-- TIMER_FIRE (R305, R347): VTIME has reached an armed deadline. -/
def execTimerFire (fn asid : Nat) (n : Fin 4) (s : State) : Host.Outcome State Fault Refusal :=
  .next (if (s.context fn asid).running then s.fireTimer fn asid n else s)

/-! Arrivals (R349 to R353, R379). -/

/-- SRC bit 15: the host (R307). -/
def hostSrc : BitVec 16 := 0x8000

/-- What a destination answers to a message: the status of R308. -/
def accepted : Nat := 0
def queueFull : Nat := 1
def absent : Nat := 2

/-- The stamp of a message that arrives now in queue q (R349). -/
def State.stampNow (s : State) (c : Context) (q : Nat) : Nat :=
  let raw := if c.running then c.vns
    else (((c.vtime : Int) + ((s.time : Int) - c.tstop)) / (Config.unitsPerNs : Int)).toNat
  match c.lastStamp.getD q none with
  | some p => max p raw
  | none => raw

/-- A message arrives at queue q of a function's WASX context, where a packet has been accepted since the context
was created (R349, R352, R353, R379); `sender` is the context of this module that sent it (R358). -/
def State.arriveMessage (s : State) (fn q : Nat) (src : BitVec 16) (tag : Word) (rby : Nat) (da : Bool)
    (payload : List Byte) (sender : Option (Nat × Nat) := none) : State × Nat :=
  let asid := s.wasxAsid fn
  if (s.function fn).tear.isSome then (s, absent)
  else match s.context? fn asid with
  | none => (s, absent)
  | some c =>
    if c.ended || c.migrated || !c.accepted then (s, absent)
    else if Config.arrivals ≤ (c.aq.getD q []).length then (s, queueFull)
    else if rby != 0 && Config.contracts ≤ c.contracts.length then (s, queueFull)
    else
      let st := s.stampNow c q
      let m : Msg := { stamp := st, src := src, tag := tag, payload := payload }
      let k : Contract :=
        { src := src, tag := tag, da := da, arrived := s.time, due := s.time + rby * Config.unitsPerTick
          sender := sender }
      (s.updContext fn asid fun c => { c with
        aq := c.aq.modify q (· ++ [m])
        lastStamp := c.lastStamp.set q (some st)
        contracts := if rby == 0 then c.contracts else c.contracts ++ [k] }, accepted)

/-- MESSAGE_ARRIVAL (R349, R352): a refusal goes back to the sender; to a node's message, a VF that answers to no
node, or to one under teardown, is gone (R377, R379, R382). -/
def execMessageArrival (fn : Nat) (q : Fin 4) (src : BitVec 16) (tag rby : Word) (da : Bool)
    (payload : List Byte) (s : State) : Host.Outcome State Fault Refusal :=
  if 256 < payload.length then .next s
  else
    let f := s.function fn
    let r := if isVf fn && !src.getLsbD 15 && (!f.nen || s.tornNode f.node) then (s, absent)
      else s.arriveMessage fn q src tag rby.toNat da payload
    let ans : PeerAnswer := if r.2 == accepted then .data [] else if r.2 == queueFull then .refused else .vfGone
    .next { r.1 with outbox := { r.1.outbox with
      peerReplies := (src.setWidth 12, ans) :: r.1.outbox.peerReplies } }

/-- The head of a queue is deliverable to a launch with VTP code `vtp` (R350, R351). -/
def Context.deliverable (c : Context) (q vtp : Nat) : Bool :=
  match (c.aq.getD q []).head? with
  | some m => vtp == 1 || m.stamp ≤ c.vns
  | none => false

/-- The fragments parked in RECV on a queue of a context, with their turns (R307). -/
def State.receivers (s : State) (fn asid q : Nat) : List (FragRef × Nat) :=
  (s.wavesOf fn asid).flatMap fun w => [Slice.a, Slice.c].flatMap fun sl =>
    (((s.wave w).stream sl).live).filterMap fun x => match x.2.park with
      | some (.recv p turn) => if p == q then some ({ wave := w, slice := sl, entry := x.1 }, turn) else none
      | _ => none

/-- The RECV whose turn it is. -/
def nextReceiver : List (FragRef × Nat) → Option (FragRef × Nat)
  | [] => none
  | x :: t => match nextReceiver t with
    | none => some x
    | some y => some (if y.2 < x.2 then y else x)

/-- MESSAGE_DELIVERABLE (R350): the RECV that reached the queue first goes on with the next step. -/
def execMessageDeliverable (fn asid : Nat) (q : Fin 4) (s : State) : Host.Outcome State Fault Refusal :=
  let c := s.context fn asid
  match nextReceiver (s.receivers fn asid q) with
  | none => .next s
  | some r =>
    let vtp := (s.launch (s.launchOf r.1.wave)).packet.vtp
    .next (if c.running && c.deliverable q vtp then { s with agenda := .issue r.1 :: s.agenda } else s)

/-- The arrival queue of a message in MSGBUF: DQ of its header, unless the bits that MSGGO was written with say
otherwise and the free value has them count. DESIGN CHOICE, log entry 60. -/
def State.msggoQueue (s : State) (fn : Nat) (q : BitVec 2) : Nat :=
  if Config.msggoHeader s.cycle then q.toNat else ((s.function fn).msgbuf.read 2).toNat % 4

/-- MSGGO (R370, R376, R379): MSGBUF goes to the function's own context; DNODE is ignored. DEDUCED, log entry 60. -/
def execMsggo (fn : Nat) (q : BitVec 2) (s : State) : Host.Outcome State Fault Refusal :=
  if !s.presents fn then .next s else
  let b := (s.function fn).msgbuf
  let n := min 256 (b.nat 4 2)
  let r := s.arriveMessage fn (s.msggoQueue fn q) hostSrc (BitVec.ofNat 32 (b.nat 8 4)) (b.nat 12 4)
    ((b.read 3).getLsbD 0) (b.reads 16 n)
  .next (r.1.updFunction fn fun f => { f with msgst := BitVec.ofNat 32 r.2 })

/-! RECV (R307). -/

/-- Checks of a scratchpad area as for a load or a store: alignment, range, lock, tagged granule. -/
def Ctx.areaFault (c : Ctx) (off n al : Nat) (wr : Bool) : Option Trap :=
  let addr : Dword := BitVec.ofNat 64 off
  if off % al != 0 then some { cls := .align, addr := addr }
  else if c.block.scrSize < off + n then some { cls := .protection, cause := 1, addr := addr }
  else if c.coreState.locked 0 c.blockId off (off + n - 1) wr then some { cls := .rangeLocked, addr := addr }
  else if wr && c.block.tagged off n then some { cls := .barrierClobber, addr := addr }
  else none

/-- Every RECV ahead in a queue has a message to take, and one is then left that this wave's launch may take: a RECV.nb
waits for its turn and does not come back empty (R307). -/
def Ctx.awaits (c : Ctx) (q : Nat) (ahead : List (FragRef × Nat)) : Bool :=
  let ready := fun (vtp i : Nat) => match (c.context.aq.getD q [])[i]? with
    | some m => vtp == 1 || m.stamp ≤ c.context.vns
    | none => false
  let turns := sortBy (fun x y => x.2 ≤ y.2) ahead
  (List.range turns.length).all (fun i =>
    ready (c.s.launch (c.s.launchOf (turns[i]?.getD (c.r, 0)).1.wave)).packet.vtp i) &&
  ready c.launch.packet.vtp turns.length

/-- RECV (R307, R350, R351). -/
def execRecv (x a : Spec) (la : BitVec 4) (b : BitVec 1) (q : BitVec 2) (s : State) :
    Host.Outcome State Fault Refusal :=
  issued s fun c =>
    let regs := specRegs x 1 ++ specRegs a 1
    let win := c.window la regs
    c.heldOp
      { noRegion := true, operand := !c.uniRegOk x 1 1 || !c.uniRegOk a 1 1, regs := regs }
      (fun c0 => match c0.areaFault (c0.uval a).toNat 272 16 true with
        | some t => .error (.trap c0 t)
        | none => .ok c0.newHold)
      (fun c _ =>
        let rs := c.s.receivers c.fn c.asid q.toNat
        let own := match c.f.park with
          | some (.recv _ turn) => some turn
          | _ => none
        -- the RECVs that reached the queue before it come first
        let ahead := rs.filter fun x => x.1 != c.r && own.elim true (x.2 < ·)
        let wait := Act.park c (.recv q.toNat (own.getD (1 + (rs.map (·.2)).foldl max 0)))
        if ahead.isEmpty && c.context.deliverable q.toNat c.launch.packet.vtp then
          match c.context.aq.getD q.toNat [] with
          | m :: t =>
            let n := m.payload.length
            let s := c.s.updContext c.fn c.asid fun k => { k with aq := k.aq.set q.toNat t }
            let s := s.writeBytes (.scr c.blockId) (c.uval a).toNat
              (bytesOfNat 8 m.stamp ++ bytesOfNat 2 n ++ bytesOfNat 2 m.src.toNat ++ bytesOfNat 4 m.tag.toNat ++
                m.payload)
            .next ({ c with s := s }.setSpec x (BitVec.ofNat 32 n)) win
          | [] => wait
        else if b == 1#1 && !c.awaits q.toNat ahead then .next (c.setSpec x 0x80000000) win
        else wait)

/-! MSEND (R308, R354, R371). -/

/-- A send header. -/
structure SendHdr where
  node : Nat
  dq : Nat
  host : Bool
  len : Nat
  tag : Word
  rby : Nat
  rsv : Bool

def SendHdr.of (bs : List Byte) : SendHdr :=
  let f := fun (o n : Nat) => natOfBytes ((bs.drop o).take n)
  { node := f 0 2 % 4096, dq := f 2 1 % 4, host := f 3 1 % 2 == 1, len := f 4 2
    tag := BitVec.ofNat 32 (f 8 4), rby := f 12 4
    rsv := f 0 2 / 4096 != 0 || f 2 1 / 4 != 0 || f 3 1 / 2 != 0 || f 6 2 != 0 || 256 < f 4 2 }

/-- What a send comes to. -/
inductive Sent
  | status (s : State) (n : Nat)
  /-- It waits for an answer from another node. -/
  | request (s : State) (id : Nat)
  /-- The host ring's page has no translation yet. -/
  | miss (va : Nat)

/-- A message to the host message ring of a function (R371). -/
def State.sendHost (s : State) (fn asid : Nat) (h : SendHdr) (payload : List Byte) : Sent :=
  let f := s.function fn
  let n := 2 ^ (f.hmrn.toNat % 16)
  let t := f.hmrt.toNat % n
  let wasx := s.wasxAsid fn
  let va := f.hmrb.toNat + 512 * t
  if f.hmrb == 0 then .status s absent
  else if (t + 1) % n == f.hmrh.toNat % n then .status s queueFull
  else match s.translate none fn wasx { write := true, host := true, priv := 2 } va with
    | .miss => .miss va
    | .fault _ => .status s absent
    | .ok _ =>
      let rec' := bytesOfNat 8 (s.context fn asid).vns ++ bytesOfNat 2 h.len ++ bytesOfNat 2 asid ++
        bytesOfNat 4 h.tag.toNat ++ bytesOfNat 4 h.rby ++ bytesOfNat 1 h.dq ++ List.replicate 11 0 ++
        payload ++ List.replicate (480 - payload.length) 0
      let s := s.writeVirt fn wasx va rec' true
      .status (s.updFunction fn fun f => { f with hmrt := BitVec.ofNat 32 ((t + 1) % n) }) accepted

/-- A message to a node (R308, R379): a node of this module accepts or refuses in place, another one by a
PEER_REPLY. -/
def State.sendNode (s : State) (fn asid wave : Nat) (h : SendHdr) (hdr payload : List Byte) : Sent :=
  let f := s.function fn
  if !(isVf fn && f.nen) then .status s absent
  else match s.fnOfNode h.node with
    | some g =>
      let r := s.arriveMessage g.fn h.dq (BitVec.ofNat 16 f.node) h.tag h.rby true payload (some (fn, asid))
      .status r.1 r.2
    | none =>
      if s.tornNode h.node then .status s absent
      else
        let id := s.peers.length
        let m := hdr.set 3 1 ++ payload
        .request { s with
          peers := s.peers ++ [{ id := id, fn := fn, node := h.node, off := 0, ask := .store m, since := s.time
                                 wave := wave, msg := true }]
          outbox := { s.outbox with messages := (h.node, m) :: s.outbox.messages } } id

/-- The first contract with a sender and tag is discharged (R354). -/
def discharge (src : BitVec 16) (tag : Word) : List Contract → List Contract
  | [] => []
  | k :: t => if k.src == src && k.tag == tag then t else k :: discharge src tag t

/-- The status that an answer gives (R308). -/
def statusOf : PeerAnswer → Nat
  | .data _ | .poisoned => accepted
  | .refused => queueFull
  | .vfGone => absent

/-- MSEND (R308): it completes when the destination accepts or refuses. DEDUCED, log entry 60. -/
def execMsend (x a : Spec) (la : BitVec 4) (s : State) : Host.Outcome State Fault Refusal :=
  issued s fun c =>
    let regs := specRegs x 1 ++ specRegs a 1
    let win := c.window la regs
    c.heldOp
      { noRegion := true, operand := !c.uniRegOk x 1 1 || !c.uniSrcOk a, regs := regs }
      (fun c0 =>
        if c0.allHelpers then .error (.next c0 win)
        else
          let off := (c0.uval a).toNat
          match c0.areaFault off 16 16 false with
          | some t => .error (.trap c0 t)
          | none =>
            let hdr := c0.s.loadBytes c0.r.wave none (.scr c0.blockId) off 16
            if hdr.2 then .error (.consume c0 (c0.s.loadMark c0.r.wave none (.scr c0.blockId) off 16))
            else
              let h := SendHdr.of hdr.1
              if h.rsv then .error (c0.fail .illegalOperand)
              else match (if h.len == 0 then none else c0.areaFault (off + 16) h.len 1 false) with
                | some t => .error (.trap c0 t)
                | none =>
                  let p := c0.s.loadBytes c0.r.wave none (.scr c0.blockId) (off + 16) h.len
                  if p.2 then .error (.consume c0 (c0.s.loadMark c0.r.wave none (.scr c0.blockId) (off + 16) h.len)) else .ok { c0.newHold with data := hdr.1 ++ p.1 })
      (fun c h =>
        let k := SendHdr.of (h.data.take 16)
        let finish := fun (c : Ctx) (n : Nat) =>
          let src := if k.host then hostSrc else BitVec.ofNat 16 k.node
          let s := c.s.updContext c.fn c.asid fun y => { y with contracts := discharge src k.tag y.contracts }
          Act.next ({ c with s := s }.external.setSpec x (BitVec.ofNat 32 n)) win
        if h.arrived then
          match c.s.peerAnswer? (h.reqs.getD 0 0) with
          | none => .park c .peer
          | some r => finish c (statusOf r)
        else
          match (if k.host then c.s.sendHost c.fn c.asid k (h.data.drop 16)
              else c.s.sendNode c.fn c.asid c.r.wave k (h.data.take 16) (h.data.drop 16)) with
          | .status s n => finish { c with s := s } n
          | .request s id =>
            .park { c with s := s, f := { c.f with hold := some { h with arrived := true, reqs := [id] } } } .peer
          | .miss va =>
            let r := c.s.parkFault (dieOf c.w.core) c.fn (c.s.wasxAsid c.fn) va true (.frag c.r)
            .park { c with s := r.1 } (match r.2 with | some id => .xlate id | none => .refused))

/-! Patience (R353 to R358). -/

/-- E: the stop time owed, in whole ticks (R355). -/
def Contract.owed (k : Contract) : Nat :=
  (k.stopped + Config.unitsPerTick - 1) / Config.unitsPerTick - k.granted

/-- The remaining patience is below 8 ticks while stop time is owed (R356). -/
def Contract.low (k : Contract) (now : Nat) : Bool :=
  k.due < now + 8 * Config.unitsPerTick && 0 < k.owed

/-- The 20 bytes of a DEFER, or of an alarm with X = 0 (R357). DESIGN CHOICE, log entry 92: past the deadline REM is the
negative floor, as two's complement in its four bytes. -/
def Contract.fields (k : Contract) (fn now ext : Nat) : List Byte :=
  let rem : Int := (k.due - (now : Int)) / (Config.unitsPerTick : Int)
  bytesOfNat 2 k.src.toNat ++ bytesOfNat 2 (fnField fn) ++ bytesOfNat 4 k.tag.toNat ++ bytesOfNat 4 ext ++
    bytesOfNat 4 k.owed ++ bytesOfNat 4 (rem % 2 ^ 32).toNat

/-- The patience check of one contract (R356): a DEFER to a defer-aware sender, counted in the context of this
module that sent the message (R358), else one alarm; a context that has been exported checks none (R359). -/
def State.checkPatience (s : State) (fn asid i : Nat) : State :=
  let c := s.context fn asid
  match c.contracts[i]? with
  | none => s
  | some k =>
    if !k.low s.time || c.migrated then s
    else if k.da then
      let x := k.owed + 8
      let msg := k.fields fn s.time x
      let k' := { k with due := k.due + x * Config.unitsPerTick, granted := k.granted + k.owed }
      let s := s.updContext fn asid fun c => { c with contracts := c.contracts.set i k' }
      let s := { s with outbox := { s.outbox with defers := msg :: s.outbox.defers } }
      match k.sender with
      | some x => s.updContext x.1 x.2 fun c => { c with defers := c.defers + 1 }
      | none => s
    else if k.alarmed then s
    else
      let s := s.updContext fn asid fun c => { c with contracts := c.contracts.set i { k with alarmed := true } }
      s.postEvent ([1, fnByte fn] ++ List.replicate 6 0 ++ k.fields fn s.time 0)

/-- PATIENCE_LOW (R356). -/
def execPatienceLow (fn asid contract : Nat) (s : State) : Host.Outcome State Fault Refusal :=
  .next (s.checkPatience fn asid contract)

/-- DEFER_RECEIVE (R358): counted, and never seen by the program. -/
def execDeferReceive (fn asid : Nat) (_tag _ext : Word) (s : State) : Host.Outcome State Fault Refusal :=
  .next (s.updContext fn asid fun c => { c with defers := c.defers + 1 })

end Sys2Proof.Machine
end

