-- ==== Sys2Proof/Machine/Stops.lean ====
section
/-!
DEFINITION. Stops and resumes: pre-emption with save, discard or drain, the debugger and a single step (R336 to R338,
R343, R345, R346).
-/

namespace Sys2Proof.Machine

/-! What must have settled (R337). -/

/-- Nothing of the fragment is under way: it holds no issued instruction, or one that is recorded as not
yet executed, or it waits on a translation. -/
def Frag.quiet (f : Frag) : Bool :=
  match f.hold with
  | none => true
  | some h => match f.park with
    | some .waitv => h.settled
    | some (.recv _ _) => h.settled
    | some (.cell _ _ _ _) => h.settled
    | some (.xlate _) => true
    | some .refused => true
    | _ => false

/-- A wave has settled: its loads are back, its stores and held instructions done. -/
def Wave.quiet (w : Wave) : Bool :=
  w.retired || (w.exitedAt.isNone && w.loads.isEmpty && w.pend.isEmpty && w.privPend.isEmpty && w.frags.all Frag.quiet)

/-- A block has stopped at the end of step 2 of R338's table: its waves have settled and what its strong stores left in
an egress queue has arrived. Its copies may be under way yet. -/
def State.blockStill (s : State) (b : Nat) : Bool :=
  ((s.block b).waves.all fun w => (s.wave w).quiet) && !(s.egress.any fun e => (s.block b).waves.contains e.wave)

/-- A block has settled: its waves have, its copies have drained to their own ends, what its strong stores left in an
egress queue has arrived, and if it has only to retire, no lock keeps it (R275, R337). VTIME has stopped before the copies
drain (log entry 89). -/
def State.blockQuiet (s : State) (b : Nat) : Bool :=
  let k := s.block b
  s.blockStill b && ((s.core k.core).copiesOf k.waves).isEmpty &&
    (!(k.waves.all fun w => (s.wave w).retired) || s.blockUnlocked b)

/-- The launches of a queue. -/
def State.launchesOf (s : State) (q : Nat) : List Nat :=
  (List.range s.launches.length).filter fun l => (s.launch l).queue == q && (s.launch l).phase == .running

/-- The blocks of a queue's launches in a phase, in order. -/
def State.blocksIn (s : State) (q : Nat) (p : BlockPhase) : List Nat :=
  (List.range s.blocks.length).filter fun b =>
    let k := s.block b
    k.phase == p && (s.launch k.launch).queue == q && ((s.launch k.launch).phase == .running || k.shadow)

/-- A command with its lock taken is under way in a launch (R184). -/
def State.filling (s : State) (lid : Nat) : Bool :=
  s.engines.any fun x => x.launch == lid && x.committed

/-- Every resident block of the queue has settled and its engines stand at a command boundary. -/
def State.queueQuiet (s : State) (q : Nat) : Bool :=
  ((s.blocksIn q .resident).all s.blockQuiet) && !((s.launchesOf q).any s.filling)

/-- Every resident block of the queue has come to its stop instant (R338, R345). -/
def State.queueSettled (s : State) (q : Nat) : Bool := (s.blocksIn q .resident).all s.blockStill

/-! Running contexts (R343, R345). -/

/-- A queue of the context holds a slot and is not a stopped one whose instructions have settled. DESIGN CHOICE, log
entry 89: the stop instant is the end of step 2 of R338's table, when the loads are back and before the copies
have drained, where R343 and R345 name the settling of R337, whose list takes in the copies. -/
def State.contextRuns (s : State) (fn asid : Nat) : Bool :=
  s.queues.any fun q => q.fn == fn && q.asid == asid && q.slot.isSome && !(q.preempted && s.queueSettled q.id)

/-- The timers of a context whose deadlines VTIME has reached fire (R347). -/
def State.fireTimers (s : State) (fn asid : Nat) : State :=
  (List.range 4).foldl (fun s n => s.fireTimer fn asid n) s

/-- Stop or resume VTIME of every context according to R343. A stop takes effect now, and what VTIME has reached
fires before it (R345, R347). -/
def State.refreshRunning (s : State) : State :=
  let runs := fun (c : Context) => s.contextRuns c.fn c.asid && !c.ended
  let s := (s.contexts.filter fun c => c.running && !runs c).foldl (fun s c => s.fireTimers c.fn c.asid) s
  { s with contexts := s.contexts.map fun c =>
      if c.running && !runs c then { c with running := false, tstop := s.time }
      else { c with running := runs c } }

/-- A debugger, a single step or a migration holds the context: no queue of it is mapped and none of its blocks is
placed (R343, R359). -/
def Context.held (c : Context) : Bool := c.debugStop || c.stepping || c.exporting || c.migrated

/-- Stop the stream contexts of a launch at a command boundary: a command parked before its first write is
abandoned (R184). -/
def State.saveEngines (s : State) (lid : Nat) : State :=
  (s.engines.filter (·.launch == lid)).foldl (fun s x =>
    let s := s.unlockFill x.engine x.k
    let s := { s with faults := s.faults.filter fun f => f.who != Requester.engine x.engine x.k }
    s.updXctx x.engine x.k fun y => { y with
      saved := true, xlate := none
      phase := match y.phase with
        | .faulted c => .faulted c
        | _ => .running }) s

/-- Saved stream contexts resume at their next command (R184). -/
def State.resumeEngines (s : State) (p : XCtx → Bool) : State :=
  { s with engines := updAll p (fun x => { x with saved := false }) s.engines }

/-! The save area (R338, R372). -/

/-- Bytes that a block's record takes: its wave records, its allocations and an opaque rest; DESIGN CHOICE, log entry
20. -/
def State.recordSize (s : State) (b : Nat) : Nat :=
  let k := s.block b
  41984 * k.waves.length + k.scrSize + k.wbufSize + k.abufSize + k.cbufSize +
    Config.blockRecordBytes (k.savedBwb.length + k.savedGwb.length) k.savedHandles.length

/-- The records that stand in the save area of a queue: address and size. -/
def State.recordsOf (s : State) (q : Nat) : List (Nat × Nat) :=
  (List.range s.blocks.length).filterMap fun b =>
    if (s.launch (s.block b).launch).queue == q then (s.block b).recordAt.map fun a => (a, s.recordSize b) else none

/-- Where a block's record goes in the save area of its launch, beside the records at `taken`: the lowest place that
holds it. DESIGN CHOICE, log entry 20. -/
def State.recordPlace (s : State) (taken : List (Nat × Nat)) (b : Nat) : Option Nat :=
  let l := s.launch (s.block b).launch
  let base := l.save.toNat + if 16 ≤ l.svsz then 65536 else 0
  let n := s.recordSize b
  let ok := fun (a : Nat) => base ≤ a && a + n ≤ l.save.toNat + 4096 * l.svsz &&
    taken.all fun r => a + n ≤ r.1 || r.1 + r.2 ≤ a
  (sortBy (· ≤ ·) (base :: taken.map fun r => r.1 + r.2)).find? ok

/-- The places of the records of several blocks; none where one finds no room. -/
def State.recordPlaces (s : State) (taken : List (Nat × Nat)) : List Nat → Option (List (Nat × Nat))
  | [] => some []
  | b :: t => match s.recordPlace taken b with
    | none => none
    | some a => (s.recordPlaces ((a, s.recordSize b) :: taken) t).map ((b, a) :: ·)

/-- The save area of the queue holds the records of these blocks beside those it holds already (R372). -/
def State.saveFits (s : State) (q : Nat) (bs : List Nat) : Bool := (s.recordPlaces (s.recordsOf q) bs).isSome

/-- A wave record (R338): registers, predicates, latch rows and vectors where its table has them; header, entries and
the rest are opaque, given by `free`. DESIGN CHOICE, log entry 20. -/
def Wave.recordBytes (w : Wave) (free : Nat → Byte) : List Byte :=
  let opq := fun (o n : Nat) => (List.range n).map fun i => free (o + i)
  let a := (w.a.map (·.regs)).getD {}
  let c := w.c.regs
  let preds := (List.range 4).map a.pred ++ (List.range 8).map c.pred
  let vecs := (List.range 32).map a.vec ++ (List.range w.vcount).map c.vec
  opq 0 0x1200 ++
    (((List.range 32).map a.uni ++ (List.range 64).map c.uni ++ preds).flatMap bytesOfWord) ++ opq 0x13B0 0x50 ++
    (match w.latch with
     | some l => (l.rows.flatMap id ++ opq 0x1400 512).take 512
     | none => opq 0x1400 512) ++
    opq 0x1600 0x3E00 ++ (vecs.flatMap fun v => lanes.flatMap fun l => bytesOfWord (v.lane l)) ++
    opq (0x5400 + 128 * vecs.length) (20480 - 128 * vecs.length)

/-- Write bytes at virtual addresses, page by page, at most `fuel` of them; those of a page whose translation does not
grant the write are dropped. -/
def State.writeArea (s : State) (fn asid va : Nat) (bs : List Byte) : Nat → State
  | 0 => s
  | fuel + 1 =>
    let n := 8192 - va % 8192
    let s := match s.reach fn asid { write := true, priv := 2 } va with
      | (.ok pa, p) => s.writeBytes p pa (bs.take n)
      | _ => s
    if bs.length ≤ n then s else s.writeArea fn asid (va + n) (bs.drop n) fuel

/-- Write the record of a block that is being saved: its wave records first, then its allocations and its sectors and
handles, opaque. DESIGN CHOICE, log entry 20. -/
def State.writeRecord (s : State) (b : Nat) : State :=
  let k := s.block b
  let l := s.launch k.launch
  match s.recordPlace (s.recordsOf l.queue) b with
  | none => s
  | some a =>
    let free := fun (i : Nat) => Config.deviceByte 6 [] (s.cycle * 2 ^ 40 + b * 2 ^ 24 + i)
    let ws := (List.range k.waves.length).flatMap fun i =>
      (s.wave (k.waves.getD i 0)).recordBytes fun o => free (41984 * i + o)
    let bs := ws ++ (List.range (s.recordSize b - ws.length)).map fun i => free (ws.length + i)
    (s.writeArea l.fn l.asid a bs (bs.length / 8192 + 2)).updBlock b fun x => { x with recordAt := some a }

/-! Saving and discarding a block (R336, R337). -/

/-- Write the stack cache of a wave back to its backing (R173); a line whose backing is not translated stays with the
wave. -/
def State.flushStack (s : State) (w : Nat) : State :=
  let wv := s.wave w
  let l := s.launch (s.launchOf w)
  wv.cache.foldl (fun s k =>
    let va := wv.backAt l.packet k.word
    let gone := fun (s : State) => s.updWave w fun x => { x with cache := x.cache.filter (·.word != k.word) }
    if !k.dirty then gone s
    else match s.translate (some wv.core) l.fn l.asid { write := true, priv := 2 } va with
      | .ok pa => gone (s.writeLine pa k)
      | _ => s) s

/-- A fragment as the save record holds it: a parked instruction is recorded as not yet executed, except
that a BARW which has arrived stays a pending wait, and a load keeps its reserved entries (R51, R164,
R268). -/
def Frag.saved (f : Frag) : Frag :=
  let park := match f.park with
    | some (.join id) => some (.join id)
    | _ => none
  let hold := match f.park with
    | some (.xlate _) => f.hold
    | some .refused => f.hold
    | _ => match f.hold with
      | some h => if h.arrived then some h else none
      | none => none
  { f with park := park, hold := hold }

/-- Forget what rollback keeps of a set of waves: they are not resident any more. -/
def State.forget (s : State) (core : Nat) (ws : List Nat) : State :=
  s.updCore core fun c => { c with
    history := c.history.filter fun h => !ws.contains h.wave
    performed := c.performed.filter fun p => !ws.contains p.ref.wave
    inputs := c.inputs.filter fun i => !ws.contains i.2.1
    replay := c.replay.filter fun r => !ws.contains r.wave }

/-- Save a settled block (R337): its stack caches are written back, its sectors at b and those of its gang at g of which it
is the lowest-numbered owner leave the buffers with it, and so do its handle entries. What strong accesses
wrote into the copies of the core and of the cluster is written outward, so that the block finds it
on whatever core it comes back to (R232, R416); DEDUCED, log entry 27. A block whose waves have retired is
gone (log entry 21). -/
def State.saveBlock (s : State) (b : Nat) : State :=
  let k := s.block b
  if k.waves.all fun w => (s.wave w).retired then s.sweepBlock b else
  let s := k.waves.foldl (fun s w => s.flushStack w) s
  let s := s.writeOutAll k.core 3
  let cl := clusterOf k.core
  let low := fun (x : Sector) => (x.owners.map fun o => (s.block o).member).foldl min 4
  let mine := fun (x : Sector) => x.group == s.gangOf b && x.owners.contains b && low x == k.member
  let bwb := (s.core k.core).bwb.filter (·.group == b)
  let gwb := (s.cluster cl).gwb.filter mine
  let hs : List SavedHandle := ((s.core k.core).handles.filter fun e => e.alloc && e.block == b).map fun e =>
    { idx := e.idx, gen := e.gen, buf := e.buf, off := e.off, len := e.len }
  let s := s.updCore k.core fun c => { c with
    bwb := c.bwb.filter (·.group != b)
    handles := c.handles.map fun e => if e.alloc && e.block == b then { idx := e.idx, gen := e.gen } else e }
  let s := s.updCluster cl fun c => { c with gwb := c.gwb.filter fun x => !mine x }
  let s := (s.dropFaults k.waves).forget k.core k.waves
  let s := k.waves.foldl (fun s w => s.updWave w fun x => x.mapFrags Frag.saved) s
  (s.updBlock b fun x => { x with
    phase := .saved, preempted := true, stopping := false, waitSince := s.time
    savedBwb := bwb, savedGwb := gwb, savedHandles := hs }).writeRecord b

/-- A block that may be discarded at a stop: idempotent, with nothing done beyond itself (R336). -/
def State.discardable (s : State) (b : Nat) : Bool :=
  let k := s.block b
  (s.launch k.launch).packet.idem && !k.external

/-- Discard a block (R336): what its waves brought to the buffers is aborted, its allocations and handles
are freed, and it waits to be rerun from its entry. Its waves that have not retired keep their backing slots, and what
they have discarded from their queues counts no more (R159, R324). -/
def State.discardBlock (s : State) (b : Nat) : State :=
  let k := s.block b
  if k.waves.all fun w => (s.wave w).retired then s.sweepBlock b else
  let s := k.waves.foldl (fun s w => (s.abort w 2 (s.wave w).seq).1) s
  let s := k.waves.foldl (fun s w => (s.wave w).frags.foldl (fun s f =>
    ((f.hold.map (·.users)).getD []).foldl (fun s h => s.dropUser k.core h) s) s) s
  let s := (s.dropFaults k.waves).forget k.core k.waves
  let s := k.waves.foldl (fun s w => s.updWave w fun x =>
    { x with retired := true, pend := [], privPend := [], loads := [], cache := [], priv := [], sqdrop := 0,
             c := { x.c with frags := [], ended := true, handler := none },
             a := x.a.map fun a => { a with frags := [], ended := true, handler := none } }) s
  let s := s.releaseBlock b .waiting
  s.updBlock b fun x => { x with preempted := true, stopping := false, waitSince := s.time }

/-- Stop settled blocks: those that may be discarded go first, so that what they brought to the buffers of a gang is
aborted before a saved member takes the gang's sectors with it (R336, R337). -/
def State.stopBlocks (s : State) (bs : List Nat) : State :=
  (bs.filter fun b => !s.discardable b).foldl (fun s b => s.saveBlock b)
    ((bs.filter s.discardable).foldl (fun s b => s.discardBlock b) s)

/-- A stop whose record finds no room in the save area drains its queue instead, and an event says so (R372). -/
def State.noRoom (s : State) (q : Nat) : State :=
  let s := (s.updQueue q fun x => { x with preempted := false, draining := true }).refreshRunning
  s.postEvent ([4, fnByte (s.queue q).fn] ++ bytesOfNat 2 q)

/-- The members of a block's gang, the block itself among them. -/
def State.gangBlocks (s : State) (b : Nat) : List Nat :=
  (List.range s.blocks.length).filter fun x => s.gangOf x == s.gangOf b && !(s.block x).shadow

/-- The blocks that stop with a block: its resident gang (R336). -/
def State.whole (s : State) (b : Nat) : List Nat :=
  if (s.block b).gangSize ≤ 1 then [b] else (s.gangBlocks b).filter fun x => (s.block x).phase == .resident

/-- A block that is stopping while its queue keeps its slot has settled, and so have the other members of its gang, all
of them stopping, with no fill of its launch under way (R336, R337). -/
def State.mayFinish (s : State) (b : Nat) : Bool :=
  (s.block b).phase == .resident && (s.block b).stopping && !s.filling (s.block b).launch &&
    (s.whole b).all fun x => (s.block x).stopping && s.blockQuiet x

/-- A block that is stopping while its queue keeps its slot is saved once its whole gang has settled, and the gang with
it; the stream contexts of the launch stop at a command boundary with it and go on (R184, R329, R337, R393). -/
def State.finishBlock (s : State) (b : Nat) : State :=
  let l := (s.block b).launch
  let bs := s.whole b
  if !s.mayFinish b then s
  else if !s.saveFits (s.launch l).queue bs then
    (bs.foldl (fun s x => s.updBlock x fun y => { y with stopping := false }) s).noRoom (s.launch l).queue
  else (bs.foldl (fun s x => s.saveBlock x) (s.saveEngines l)).resumeEngines (·.launch == l)

/-! Stopping a queue (R336). -/

/-- The queue gives up its slot. -/
def State.unmap (s : State) (q : Nat) : State :=
  (s.updQueue q fun x => { x with slot := none, preempted := false, draining := false, waited := 0 }).refreshRunning

/-- Finish the stop of a settled queue: its blocks are discarded or saved and it gives up its slot. A queue
whose records find no room drains instead, and an event says so (R372). -/
def State.finishStop (s : State) (q : Nat) : State :=
  let bs := s.blocksIn q .resident
  let keep := bs.filter fun b => !s.discardable b
  if !keep.isEmpty && !s.saveFits q keep then s.noRoom q
  else
    let s := s.stopBlocks bs
    let s := (s.launchesOf q).foldl (fun s l => s.saveEngines l) s
    s.unmap q

/-- Finish a drain once no block is resident (R336). -/
def State.finishDrain (s : State) (q : Nat) : State :=
  if (s.blocksIn q .resident).isEmpty then s.unmap q else s

/-- Stop a mapped queue (R336): with save, it stops issuing and is saved when it has settled; with drain,
discardable blocks go and the others run to retirement. DESIGN CHOICE, log entry 45. -/
def State.stopQueue (s : State) (q : Nat) (save : Bool) : State :=
  if (s.queue q).slot.isNone then s
  else if save then
    let s := s.updQueue q fun x => { x with preempted := true, draining := false }
    if s.queueQuiet q then s.finishStop q else s
  else if (s.queue q).preempted then s
  else
    let s := s.updQueue q fun x => { x with draining := true }
    let s := ((s.blocksIn q .resident).filter fun b => s.discardable b && s.blockQuiet b).foldl
      (fun s b => s.discardBlock b) s
    s.finishDrain q

/-- The mapped queues of a context. -/
def State.mappedOf (s : State) (fn asid : Nat) : List Nat :=
  (s.queues.filter fun q => q.fn == fn && q.asid == asid && q.slot.isSome).map (·.id)

/-- PREEMPTION (R336): the queue stops, by save or by drain. -/
def execPreemption (queue : Nat) (save : Bool) (s : State) : Host.Outcome State Fault Refusal :=
  .next (s.stopQueue queue save)

/-- Stop every mapped queue of a context. -/
def State.stopContext (s : State) (fn asid : Nat) (save : Bool) : State :=
  ((s.mappedOf fn asid).foldl (fun s q => s.stopQueue q save) s).refreshRunning

/-- DEBUGGER_STOP (R336, R343): also the end of a single step (R346). -/
def execDebuggerStop (fn asid : Nat) (s : State) : Host.Outcome State Fault Refusal :=
  let s := s.updContext fn asid fun c => { c with debugStop := true, stepping := false, released := none }
  .next (s.stopContext fn asid s.sched.choiceSave)

/-- RESUME (R345): the debugger's stop ends; the context runs when one of its queues is mapped. An export's stop is
another cause, and stays. -/
def execResume (fn asid : Nat) (s : State) : Host.Outcome State Fault Refusal :=
  .next ((s.updContext fn asid fun c =>
    { c with debugStop := false, stepping := false, released := none }).refreshRunning)

end Sys2Proof.Machine
end

