-- ==== Sys2Proof/Machine/Migration.lean ====
section
/-!
DEFINITION. Migration (R359): the record that an export makes of a context, numbered within itself, and its import.
-/

namespace Sys2Proof.Machine

/-! Numbers of waves, blocks and launches. -/

/-- The numbers below `n` that satisfy `p`. -/
def idxs (n : Nat) (p : Nat → Bool) : List Nat := (List.range n).filter p

/-- A number within a record of those in `l`: its place there. What is not in the record keeps a number that nothing
else has. -/
def numberIn (l : List Nat) (x : Nat) : Nat :=
  if noOwner ≤ x then x else if l.contains x then l.idxOf x else noOwner + 1 + x

/-- A number of a record where `n` stand before it. -/
def numberUp (n x : Nat) : Nat := if noOwner ≤ x then x else x + n

/-- The place under other numbers of blocks. -/
def Place.renumber (bk : Nat → Nat) : Place → Place
  | .scr b => .scr (bk b)
  | .typed b u => .typed (bk b) u
  | p => p

def SecKey.renumber (bk : Nat → Nat) (k : SecKey) : SecKey := { k with place := k.place.renumber bk }

/-- A sector under other numbers: `who` of its owners, `by'` of the stamps of its bytes, `grp` of its group. -/
def Sector.renumber (wv bk who by' grp : Nat → Nat) (k : Sector) : Sector :=
  { k with
    key := k.key.renumber bk
    data := k.data.map fun x => x.map fun b => { b with by' := by' b.by', owner := who b.owner }
    owners := k.owners.map who
    spilledBy := k.spilledBy.map who
    group := grp k.group
    regions := k.regions.map fun r => (wv r.1, r.2) }

/-- A sector of a WWB, whose stamps are order numbers of its wave (R205, R207). -/
def Sector.renumberW (wv bk : Nat → Nat) (k : Sector) : Sector := k.renumber wv bk wv id id

/-- A number of a gang (R29). -/
def gangNumber (la : Nat → Nat) (g : Nat) : Nat := la (g / 2 ^ 32) * 2 ^ 32 + g % 2 ^ 32

/-- The queue's marked entries name sectors (R396). -/
def Fifo.renumber (bk : Nat → Nat) (q : Fifo) : Fifo :=
  { q with entries := q.entries.map fun e => match e.st with
      | .marked (some k) => { e with st := .marked (some (k.renumber bk)) }
      | _ => e }

/-- The undo images of an open region are WWB sectors (R335). -/
def Stream.renumber (wv bk : Nat → Nat) (st : Stream) : Stream :=
  { st with region := st.region.map fun r =>
      { r with undo := r.undo.map fun u => (u.1.renumber bk, u.2.map (·.renumberW wv bk)) } }

def Wave.renumber (wv bk : Nat → Nat) (w : Wave) : Wave :=
  { w with
    block := bk w.block
    wwb := w.wwb.map (·.renumberW wv bk)
    lq := w.lq.map (·.renumber bk)
    sq := w.sq.map (·.renumber bk)
    a := w.a.map (·.renumber wv bk)
    c := w.c.renumber wv bk }

/-- A block and the sectors that it keeps while saved: those of the BWB belong to its waves, those of the GWB to the
blocks of its gang (R205, R337). -/
def Block.renumber (wv bk la : Nat → Nat) (k : Block) : Block :=
  { k with
    launch := la k.launch
    waves := k.waves.map wv
    behind := k.behind.map bk
    savedBwb := k.savedBwb.map (·.renumber wv bk wv wv bk)
    savedGwb := k.savedGwb.map (·.renumber wv bk bk wv (gangNumber la)) }

/-- A launch and its provisional sectors, whose owners are its blocks (R203, R205). -/
def Launch.renumber (wv bk la : Nat → Nat) (l : Launch) : Launch :=
  { l with prov := l.prov.map (·.renumber wv bk bk wv la) }

def XCtx.renumber (wv la : Nat → Nat) (x : XCtx) : XCtx :=
  { x with launch := la x.launch, site := { x.site with wave := wv x.site.wave } }

/-! The record. -/

/-- The poison marks of the scratchpads and typed buffers of blocks (R396). -/
def State.marksOf (s : State) (bs : List Nat) : List SecKey :=
  s.memories.poison.filter fun k => match k.place with
    | .scr b => bs.contains b
    | .typed b _ => bs.contains b
    | _ => false

/-- The migration record of a context (R359): what R337 saves, numbered within the record. A timer whose owner has
retired has none. -/
def State.migrationRecord (s : State) (fn asid : Nat) : MigrationRecord :=
  let c := s.context fn asid
  let ls := idxs s.launches.length fun l =>
    (s.launch l).fn == fn && (s.launch l).asid == asid && (s.launch l).phase == .running
  let bs := idxs s.blocks.length fun b =>
    let k := s.block b
    ls.contains k.launch && !k.shadow && k.phase != .retired && k.phase != .ended
  let ws := bs.flatMap fun b => (s.block b).waves
  let owner := fun (o : Nat × Slice) => if ws.contains o.1 then some (numberIn ws o.1, o.2) else none
  { fn := fn, asid := asid
    context := { c with timers := c.timers.map fun t => { t with owner := t.owner.bind owner } }
    queues := s.queues.filter fun q => q.fn == fn && q.asid == asid
    launches := ls.map fun l => (s.launch l).renumber (numberIn ws) (numberIn bs) (numberIn ls)
    blocks := bs.map fun b =>
      { (s.block b).renumber (numberIn ws) (numberIn bs) (numberIn ls) with screen := none }
    waves := ws.map fun w => (s.wave w).renumber (numberIn ws) (numberIn bs)
    engines := (s.engines.filter fun x => ls.contains x.launch).map (·.renumber (numberIn ws) (numberIn ls))
    marks := (s.marksOf bs).map (·.renumber (numberIn bs))
    lapse := (s.time : Int) - c.tstop, at' := s.time }

/-- A contract after an import `now`, `gap` after the export (R359): D is rebased and E counts the whole stop. `away` is
the stop that the module has itself counted since the export, and `then'` the export on the exporter's clock. -/
def Contract.rebase (k : Contract) (now then' : Int) (away gap : Nat) : Contract :=
  let d := now - then' - gap
  { k with arrived := ((k.arrived : Int) + d).toNat, due := k.due + d, stopped := k.stopped - away + gap }

/-- Take up the record of another module (R359): its context, queues, launches, blocks, waves and stream contexts, numbered
after those that are here; stream contexts that are bound here stay apart. DESIGN CHOICE, log entry 76: a stop by a debugger
goes with the record, another cause that ends for itself (R345). -/
def State.adopt (s : State) (r : MigrationRecord) (gap : Nat) : State :=
  let la := numberUp s.launches.length
  let bk := numberUp s.blocks.length
  let wv := numberUp s.waves.length
  let c := { r.context with
    fn := r.fn, asid := r.asid, migrated := false, exporting := false, stepping := false, released := none, running := false
    tstop := (s.time : Int) - r.lapse - gap
    timers := r.context.timers.map fun t => { t with owner := t.owner.map fun o => (wv o.1, o.2) }
    contracts := r.context.contracts.map fun k => { k.rebase s.time r.at' 0 gap with sender := none } }
  let qs := r.queues.map fun q => { q with fn := r.fn, asid := r.asid, slot := none, preempted := false, draining := false }
  let ms := s.memories
  { s with
    contexts := s.contexts.filter (fun x => !(x.fn == r.fn && x.asid == r.asid)) ++ [c]
    queues := s.queues.filter (fun q => !qs.any fun x => x.id == q.id) ++ qs
    launches := s.launches ++ r.launches.map fun l => { l.renumber wv bk la with fn := r.fn, asid := r.asid }
    blocks := s.blocks ++ r.blocks.map fun k => { k.renumber wv bk la with waitSince := s.time }
    waves := s.waves ++ r.waves.map (·.renumber wv bk)
    engines := s.engines ++ (r.engines.filter fun x => (s.xctx? x.engine x.k).isNone).map fun x =>
      { x.renumber wv la with saved := true, xlate := none }
    memories := { ms with poison := ms.poison ++ r.marks.map (·.renumber bk) } }

/-- MIGRATION_EXPORT (R359): a context that runs is stopped with save; one that has stopped is exported in a migration
record, and its messages are refused from then on. In recovery there is no context (R407). DESIGN CHOICE, log entry 76. -/
def execMigrationExport (fn asid : Nat) (s : State) : Host.Outcome State Fault Refusal :=
  let c := s.context fn asid
  if c.migrated || s.inRecovery then .next s
  else if c.running || !(s.mappedOf fn asid).isEmpty then
    .next ((s.updContext fn asid fun c => { c with exporting := true }).stopContext fn asid true)
  else
    let r := s.migrationRecord fn asid
    .next ({ s with records := s.records ++ [r] }.updContext fn asid fun c =>
      { c with migrated := true, exporting := false, exported := s.time })

/-- MIGRATION_IMPORT (R359): t_stop is the import time less L and GAP, `gap` in real ticks, and the context may run
again. A context that this module exported is still here and is readmitted; the record of another module is taken up where
the context does not exist or has ended. A debugger's stop of the context is another cause, and stays (R345).
DESIGN CHOICE, log entry 76. -/
def execMigrationImport (fn asid gap : Nat) (s : State) : Host.Outcome State Fault Refusal :=
  let mine := fun (r : MigrationRecord) => r.fn == fn && r.asid == asid
  let g := gap * Config.unitsPerTick
  match if s.inRecovery then none else s.records.find? mine with
  | none => .next s
  | some r =>
    let s := { s with records := s.records.eraseP mine }
    match s.context? fn asid with
    | some c =>
      if c.migrated then
        .next (s.updContext fn asid fun c => { c with
          migrated := false, tstop := (s.time : Int) - r.lapse - g
          contracts := c.contracts.map fun k => k.rebase s.time c.exported (s.time - c.exported) g })
      else if c.ended then .next (s.adopt r g)
      else .next s
    | none => .next (s.adopt r g)

end Sys2Proof.Machine
end

