-- ==== Sys2Proof/Machine/Placement.lean ====
section
/-!
DEFINITION. Placing blocks: room on a core, the order of admission, what a block starts with, the redundant
screen's choice of blocks, readmission, and spin pre-emption (R42, R45, R58, R60, R63, R309, R324, R327 to
R329, R395).
-/

namespace Sys2Proof.Machine

/-! What a block needs (R58). -/

/-- A decoupled launch (R44). -/
def Packet.decoupled (p : Packet) : Bool := p.apc != 0
/-- Waves of a block (R31). -/
def Packet.waveCount (p : Packet) : Nat := (p.lanes + 31) / 32
/-- Wave-registers that a starting wave draws (R43, R58). -/
def Packet.waveRegs (p : Packet) : Nat := (if p.decoupled then 32 else 0) + p.vmin

/-- Wave-registers that a block draws when it comes to a core: those it was saved with, else those of a
start. -/
def State.blockRegs (s : State) (b : Nat) : Nat :=
  let k := s.block b
  if k.phase == .saved then (k.waves.map fun w => (s.wave w).drawn).foldl (· + ·) 0
  else
    let p := (s.launch k.launch).packet
    p.waveCount * p.waveRegs

/-- Registers that SHRINK returned less than a settle window ago, which a new block may not count (R54). -/
def State.shrunkRegs (s : State) (core : Nat) : Nat :=
  (((s.core core).shrunk.filter fun x => s.cycle < x.2 + Config.settle).map (·.1)).foldl (· + ·) 0

/-- A GROW waits on the core, which then admits no block (R55). -/
def State.growWaits (s : State) (core : Nat) : Bool := (s.residents core).any fun w => (s.wave w).growing

/-- The core has room for a block (R58, R337). -/
def State.fits (s : State) (b core : Nat) : Bool :=
  let k := s.block b
  let p := (s.launch k.launch).packet
  p.waveCount ≤ s.freeSlots core && s.blockRegs b + s.shrunkRegs core ≤ s.freeRegs core &&
  s.allocated core (·.scrSize) + k.scrSize ≤ 2 ^ 18 && s.allocated core (·.wbufSize) + k.wbufSize ≤ 2 ^ 19 &&
  s.allocated core (·.abufSize) + k.abufSize ≤ 2 ^ 18 && s.allocated core (·.cbufSize) + k.cbufSize ≤ 2 ^ 18 &&
  !s.growWaits core && (k.savedHandles.all fun h => !((s.core core).handle h.idx).alloc)

/-- The placement set of a packet as VFCLUS has it now, as a mask of clusters (R327, R384). -/
def State.placement (s : State) (fn : Nat) (p : Packet) : Nat :=
  if p.place == 0 then s.clusters? fn else Nat.land p.place (s.clusters? fn)

/-- The dispatcher may place a block of the launch on the core: enabled, of the placement set, neither
excluded nor under test (R327, R399). -/
def State.placeable (s : State) (lid core : Nat) : Bool :=
  s.coreEnabled core && (s.placement (s.launch lid).fn (s.launch lid).packet).testBit (clusterOf core) &&
  !s.maint.excluded.contains core && !(s.maint.stestBusy && s.maint.stestRun == core)

/-- Placeable cores of a cluster. -/
def State.coresOf (s : State) (lid cluster : Nat) : List Nat :=
  (List.range 4).map (4 * cluster + ·) |>.filter fun c => s.placeable lid c

/-! Gangs (R60, R327). -/

/-- Cores that members of the gang hold or have used on its present cluster. -/
def State.gangCores (s : State) (b : Nat) : List Nat :=
  ((s.gangBlocks b).filter fun x => x != b && ((s.block x).phase == .resident || (s.block x).phase == .retired)).map
    fun x => (s.block x).core

/-- The cluster that the gang is tied to: that of a resident member, else that of a retired one unless a
member stands saved and takes the gang where it goes. -/
def State.gangCluster (s : State) (b : Nat) : Option Nat :=
  let ms := (s.gangBlocks b).filter (· != b)
  match ms.find? fun x => (s.block x).phase == .resident with
  | some x => some (clusterOf (s.block x).core)
  | none =>
    if (b :: ms).any fun x => (s.block x).phase == .saved then none
    else (ms.find? fun x => (s.block x).phase == .retired).map fun x => clusterOf (s.block x).core

/-- The cluster of a screened block that its shadow must avoid. -/
def State.avoids (s : State) (b core : Nat) : Bool :=
  (s.block b).shadow && match (s.block b).screen with
    | some id => s.maint.screens.any fun x =>
        x.id == id && clusterOf (s.block x.primary).core == clusterOf core
    | none => false

/-- The cores on which the block may come to stand, room apart. -/
def State.candidates (s : State) (b : Nat) : List Nat :=
  let k := s.block b
  let all := (List.range Config.cores).filter fun c => s.placeable k.launch c && !s.avoids b c
  if k.gangSize ≤ 1 then all
  else match s.gangCluster b with
    | some cl => all.filter fun c => clusterOf c == cl && !(s.gangCores b).contains c
    | none => all.filter fun c => k.gangSize ≤ (s.coresOf k.launch (clusterOf c)).length

/-- The core that a block goes to: most free wave slots, then the lowest number (R327). -/
def State.placeCore (s : State) (b : Nat) : Option Nat :=
  (((s.candidates b).filter fun c => s.fits b c).foldl (fun (acc : Option (Nat × Nat)) c =>
    match acc with
    | some (m, x) => if m < s.freeSlots c then some (s.freeSlots c, c) else some (m, x)
    | none => some (s.freeSlots c, c)) none).map (·.2)

/-! Admission (R63, R322, R327, R328). -/

/-- A block has started once. -/
def Block.begun (k : Block) : Bool := !k.waves.isEmpty || k.phase == .ended

/-- The backing slots that waves of a block have kept: those of a discarded block's waves that had not retired
(R324, R336). -/
def State.keptSlots (s : State) (b : Nat) : List Nat :=
  (s.block b).waves.filterMap fun w => if (s.wave w).holdsSlot then some (s.wave w).backing else none

/-- Free backing slots of a launch (R324). -/
def State.freeBacking (s : State) (lid : Nat) : Nat :=
  (s.launch lid).packet.pwaves - (s.launch lid).backing.length

/-- The context lets its blocks be placed and issue (R343, R359, R373). -/
def State.contextOpen (s : State) (fn asid : Nat) : Bool :=
  match s.context? fn asid with
  | some c => !c.ended && !c.held
  | none => false

/-- A saved block waits for this one to start (R329). -/
def State.awaited (s : State) (b : Nat) : Bool :=
  s.blocks.any fun y => y.behind == some b && (y.phase == .saved || y.phase == .waiting)

/-- The block waits for room and may be admitted: its queue is mapped and not being stopped, its backing
slots are free, the block it made room for has started, no member of its gang is being stopped, and no pre-empted block of
its launch that `holds` it back waits: any of them holds back an unstarted block, and one of lower index a pre-empted one
(R63, R322, R324, R327, R329, R336). -/
def State.admissibleAfter (s : State) (holds : Block → Bool) (b : Nat) : Bool :=
  let k := s.block b
  let l := s.launch k.launch
  let q := s.queue l.queue
  (k.phase == .waiting || k.phase == .saved) && (l.phase == .running || k.shadow) &&
  q.slot.isSome && !q.preempted && (!q.draining || k.phase == .saved) && s.contextOpen l.fn l.asid &&
  (k.shadow || k.phase == .saved || l.packet.waveCount ≤ s.freeBacking k.launch + (s.keptSlots b).length) &&
  k.behind.isNone && !((s.gangBlocks b).any fun x => (s.block x).phase == .resident && (s.block x).stopping) &&
  (k.shadow || s.awaited b || !((List.range s.blocks.length).any fun x =>
    let y := s.block x
    y.launch == k.launch && y.preempted && holds y && !y.shadow && (y.phase == .waiting || y.phase == .saved) &&
      (!k.preempted || y.index < k.index)))

/-- The block may be admitted: pre-empted blocks come before unstarted ones and in ascending index, those apart that wait for
the block they made room for (R63, R327). -/
def State.admissible (s : State) (b : Nat) : Bool := s.admissibleAfter (fun y => !(y.yielded && y.behind.isSome)) b

/-- Spinning blocks may have to make room for the block (R329): a block that has run and been removed as spinning since this
one began to wait does not hold it back, since it may only spin again (R65). DEDUCED, log entry 49. -/
def State.mayDisplace (s : State) (b : Nat) : Bool :=
  s.admissibleAfter (fun y => !(y.yielded && (y.behind.isSome || (s.block b).waitSince < y.waitSince))) b

/-- Keys by which blocks are admitted, the least first: shadows last, the block a spin pre-emption made room
for, priority, the order in which queues obtained their slots, launch, pre-empted blocks, unstarted ones, index (R63, R327
to R329); a block that a spin pre-emption removed comes as any pre-empted one does once the block it made room for has
started. DEDUCED, log entry 49. -/
def State.admitKey (s : State) (b : Nat) : List Nat :=
  let k := s.block b
  let l := s.launch k.launch
  [if k.shadow then 1 else 0, if s.awaited b then 0 else 1, 3 - l.packet.prio, (s.queue l.queue).mapOrder,
   k.launch, if k.preempted then 0 else 1, k.index, b]

/-- The blocks that can be placed now, in the order of admission. DESIGN CHOICE, log entry 90: a block that finds no room does
not hold back those behind it in that order, beyond what R63 and R327 say of its own launch. -/
def State.ready (s : State) : List Nat :=
  sortBy (fun a b => s.admitKey a ≤ s.admitKey b)
    ((List.range s.blocks.length).filter fun b => s.admissible b && (s.placeCore b).isSome)

/-! Starting a block (R42, R45, R309). -/

/-- A stream at wave start: `nv` vector, `ns` uniform and `np` predicate registers, one fragment (R36, R45). -/
def newStream (pc : Dword) (mask : Mask) (nv ns np now : Nat) (args : List Word) : Stream :=
  { frags := some { pc := pc, mask := mask, ready := now } :: List.replicate 7 none
    regs :=
      { v := List.replicate nv Vec.zero
        s := (args ++ List.replicate ns 0).take ns
        p := List.replicate np 0 } }

/-- The words of s0 to s15 that a block starts with (R42, R309, R324). -/
def startArgs (p : Packet) (spawn : Option (Word × Word × Dword)) : List Word :=
  let base := (p.args ++ List.replicate 16 0).take 16
  match spawn with
  | none => base
  | some (i, nb, arg) => base.take 12 ++ [i, nb, loWord arg, hiWord arg]

/-- The live lanes of wave i of a block of n lanes (R31). -/
def liveLanes (n i : Nat) : Mask := maskOf fun l => 32 * i + l < n

/-- Wave i of a block as it starts. -/
def newWave (p : Packet) (b i core slot age backing now : Nat) (args : List Word) : Wave :=
  let live := liveLanes p.lanes i
  { block := b, idx := i, core := core, slot := slot, age := age, live := live, backing := backing
    a := if p.decoupled then some (newStream p.apc (quadsOf live) 32 32 4 now args) else none
    c := newStream p.cpc (quadsOf live) p.vmin 64 8 now args
    vcount := p.vmin, vmin := p.vmin, vmax := p.vmax, slim := p.psz
    lq := List.replicate 4 {}, sq := List.replicate 2 {}, tokens := List.replicate 8 {} }

/-- The free wave slots of a core, ascending. -/
def State.openSlots (s : State) (core : Nat) : List Nat :=
  let used := (s.residents core).map fun w => (s.wave w).slot
  (List.range Config.waveSlots).filter fun i => !used.contains i

/-- The arrays of a block hold no mark: it starts with zeros in them (R169, R396). -/
def State.cleanBlock (s : State) (b : Nat) : State :=
  let mine := fun (k : SecKey) => match k.place with
    | .scr x => x == b
    | .typed x _ => x == b
    | _ => false
  { s with memories := { s.memories with poison := s.memories.poison.filter fun k => !mine k } }

/-- Start a block that has not run, or runs again from its entry (R58, R336). A rerun keeps the backing slots that its
first run still holds; a shadow holds none. -/
def State.startFresh (s : State) (b core : Nat) : State :=
  let k := s.block b
  let l := s.launch k.launch
  let p := l.packet
  let n := p.waveCount
  let kept := s.keptSlots b
  let free := if k.shadow then List.replicate n 0
    else (kept ++ (List.range p.pwaves).filter fun i => !l.backing.contains i).take n
  let slots := s.openSlots core
  let age := (s.core core).nextAge
  let args := startArgs p k.spawn
  let first := s.waves.length
  let ws := (List.range n).map fun i =>
    { newWave p b i core (slots.getD i 0) (age + i) (free.getD i 0) s.cycle args with holdsSlot := !k.shadow }
  let s := k.waves.foldl (fun s w => s.updWave w fun x => { x with holdsSlot := false }) s
  let s := { s with waves := s.waves ++ ws }
  let s := s.updCore core fun c => { c with nextAge := age + n }
  let s := if k.shadow then s
    else s.updLaunch k.launch fun l => { l with backing := (l.backing ++ free).eraseDups }
  (s.cleanBlock b).updBlock b fun x => { x with
    phase := .resident, core := core, waves := (List.range n).map (first + ·), preempted := false
    external := false, stopping := false, scr := [], wbuf := [], abuf := [], cbuf := []
    cells := [], signature := 0 }

/-- Bring back the gang's sectors that were saved with its members (R337). -/
def State.restoreGang (s : State) (b : Nat) : State :=
  let cl := clusterOf (s.block b).core
  (s.gangBlocks b).foldl (fun s x =>
    let g := (s.block x).savedGwb
    let s := s.updCluster cl fun c => { c with gwb := c.gwb ++ g }
    s.updBlock x fun y => { y with savedGwb := [] }) s

/-- Readmit a saved block with every item restored (R337). What the copies of the core and
of the cluster hold is written outward, so that none of them is older than what the block wrote elsewhere (R232, R416);
DEDUCED, log entry 27. -/
def State.readmit (s : State) (b core : Nat) : State :=
  let k := s.block b
  let slots := s.openSlots core
  let age := (s.core core).nextAge
  let hs : List HandleEntry := k.savedHandles.map fun h =>
    { idx := h.idx, gen := h.gen, alloc := true, buf := h.buf, off := h.off, len := h.len
      launch := k.launch, block := b }
  let s := s.updCore core fun c => { c with
    nextAge := age + k.waves.length
    bwb := c.bwb ++ k.savedBwb
    handles := (c.handles.filter fun e => !hs.any fun h => h.idx == e.idx) ++ hs }
  let s := (List.range k.waves.length).foldl (fun s i =>
    s.updWave (k.waves.getD i 0) fun w =>
      ({ w with core := core, slot := slots.getD i 0, age := age + i }).mapFrags fun f => { f with ready := s.cycle }) s
  let s := s.updBlock b fun x => { x with
    phase := .resident, core := core, preempted := false, savedBwb := [], savedHandles := [], recordAt := none }
  (s.restoreGang b).writeOutAll core 3

/-! The redundant screen (R395). -/

/-- Choose whether a block that starts is screened; a gang member or a placement set of one cluster is
abandoned at once. -/
def State.chooseScreen (s : State) (b : Nat) : State :=
  let k := s.block b
  if k.shadow || k.begun || !s.maint.scrctl.getLsbD 17 then s
  else
    let r := Config.lfsrNext s.maint.lfsr
    let s := { s with maint := { s.maint with lfsr := r } }
    if r.toNat % (s.maint.scrctl.toNat % 2 ^ 17) != 0 then s
    else
      let id := s.maint.screens.length
      let l := s.launch k.launch
      let alone := ((List.range Config.clusters).filter fun c =>
        !(s.coresOf k.launch c).isEmpty).length ≤ 1
      let sh := s.blocks.length
      if 1 < k.gangSize || alone then
        let s := { s with maint := { s.maint with screensAbandoned := s.maint.screensAbandoned + 1 } }
        s.count l.fn l.asid 13 1
      else
        let s := s.updBlock b fun x => { x with screen := some id }
        let shadow : Block := { k with
          phase := .waiting, waves := [], shadow := true, screen := some id, waitSince := s.time }
        { s with
          blocks := s.blocks ++ [shadow]
          maint := { s.maint with screens := s.maint.screens ++
            [{ id := id, primary := b, shadow := some sh, since := s.time }] } }

/-- Place a block on a core: it starts, runs again or is readmitted. -/
def State.placeBlock (s : State) (b core : Nat) : State :=
  let s := { s with blocks := s.blocks.map fun (k : Block) => if k.behind == some b then { k with behind := none } else k }
  let s := s.updBlock b fun k => { k with yielded := false }
  if (s.block b).phase == .saved then s.readmit b core
  else
    let s := s.chooseScreen b
    s.startFresh b core

/-- BLOCK_PLACE (R327): the block is placed when it is the first in the order of admission. DEDUCED, log entry 14. -/
def execBlockPlace (block : Nat) (s : State) : Host.Outcome State Fault Refusal :=
  match s.ready.head? with
  | some b =>
    if b != block then .next s
    else match s.placeCore b with
      | some core => .next (s.placeBlock b core)
      | none => .next s
  | none => .next s

/-! Spin pre-emption (R329). -/

/-- A stream only spins: it is parked in WAITV, or a YIELD is among its last 64 issued instructions. -/
def Stream.spins (st : Stream) : Bool :=
  st.ended || (!st.live.isEmpty && st.live.all fun x => x.2.park == some .waitv) ||
    (match st.sinceYield with
     | some n => n < 64
     | none => false)

/-- Every stream of the block spins. -/
def State.blockSpins (s : State) (b : Nat) : Bool :=
  let k := s.block b
  k.phase == .resident && k.waves.all fun w => (s.wave w).retired || ((s.wave w).stream .a).spins && (s.wave w).c.spins

/-- The block counts as spinning, its gang with it. DESIGN CHOICE, log entry 90: a member that is not resident, not started,
saved or retired, counts as spinning. -/
def State.spinning (s : State) (b : Nat) : Bool :=
  s.blockSpins b && ((s.block b).gangSize ≤ 1 || (s.gangBlocks b).all fun x =>
    (s.block x).phase != .resident || s.blockSpins x)

/-- The least blocks to remove from a place, in order, until `need` of its cores have room for `b`. -/
def State.clearFor (s : State) (b : Nat) (cores : List Nat) (need : Nat) : List Nat → List Nat → Option (List Nat)
  | spin, gone =>
    let t := gone.foldl (fun (s : State) x => s.updBlock x fun k => { k with phase := .saved }) s
    if need ≤ (cores.filter fun c => t.fits b c).length then some gone
    else match spin with
      | [] => none
      | x :: xs => State.clearFor s b cores need xs (gone ++ (s.whole x).filter fun y => !gone.contains y)

/-- Where a waiting block could be placed once spinning blocks of its launch are removed: the blocks. -/
def State.spinVictims (s : State) (b : Nat) : Option (List Nat) :=
  let k := s.block b
  let cs := s.candidates b
  let spin := fun (on : Nat → Bool) =>
    sortBy (fun x y => (s.block y).index ≤ (s.block x).index) ((List.range s.blocks.length).filter fun x =>
      (s.block x).launch == k.launch && !(s.block x).shadow && s.spinning x && on (s.block x).core)
  if k.gangSize ≤ 1 then
    cs.findSome? fun c => s.clearFor b [c] 1 (spin (· == c)) []
  else
    let need := ((s.gangBlocks b).filter fun x => (s.block x).phase == .waiting || (s.block x).phase == .saved).length
    ((List.range Config.clusters).filter fun cl => cs.any fun c => clusterOf c == cl).findSome? fun cl =>
      s.clearFor b (cs.filter fun c => clusterOf c == cl) need (spin fun c => clusterOf c == cl) []

/-- SPIN_PREEMPTION (R329): the spinning blocks stop issuing, are saved once they have settled, and the block
they make room for is placed. DEDUCED, log entry 49. -/
def execSpinPreemption (block : Nat) (s : State) : Host.Outcome State Fault Refusal :=
  let k := s.block block
  if !(s.mayDisplace block && !k.shadow && (s.placeCore block).isNone) then .next s
  else match s.spinVictims block with
    | none => .next s
    | some vs =>
      let s := vs.foldl (fun s x => s.updBlock x fun y => { y with stopping := true, behind := some block, yielded := true }) s
      let s := vs.foldl (fun s x => s.finishBlock x) s
      match (if s.mayDisplace block then s.placeCore block else none) with
      | some core => .next (s.placeBlock block core)
      | none => .next s

end Sys2Proof.Machine
end

