-- ==== Sys2Proof/Machine/Sched.lean ====
section
/-!
DEFINITION. Queues and launches as the packet cores and the policy core handle them: wakes, mapping, rotation
rounds, time slices, packets, growth grants, the host's end of a launch and a single step (R55, R322 to
R326, R339, R346, R368 to R370, R372, R373).
-/

namespace Sys2Proof.Machine

/-! Queue table entries (R372). -/

/-- A queue-table entry. -/
structure QEnt where
  ring : Dword
  cring : Dword
  ppool : Dword
  save : Dword
  ppsz : Nat
  svsz : Nat
  asidx : Nat
  lsz : Nat
  valid : Bool
  guest : Bool
  head : Nat
  clean : Bool
  deriving DecidableEq, Repr

/-- A little-endian field of a byte list. -/
def leAt (bs : List Byte) (o n : Nat) : Nat := natOfBytes ((bs.drop o).take n)
def le64At (bs : List Byte) (o : Nat) : Dword := BitVec.ofNat 64 (leAt bs o 8)

def QEnt.of (bs : List Byte) : QEnt :=
  let fl := leAt bs 43 1
  { ring := le64At bs 0, cring := le64At bs 8, ppool := le64At bs 16, save := le64At bs 24
    ppsz := leAt bs 32 4, svsz := leAt bs 36 4, asidx := leAt bs 40 2, lsz := leAt bs 42 1
    valid := fl % 2 == 1, guest := fl / 2 % 2 == 1, head := leAt bs 44 4
    clean := fl / 4 == 0 && (bs.drop 48).all (· == 0) }

def State.qent (s : State) (q : Nat) : QEnt := QEnt.of (s.queueEntry q)

/-! Functions and their queues (R365, R368). -/

/-- The enabled virtual functions. -/
def State.enabled (s : State) : List Function := s.functions.filter fun f => isVf f.fn && f.en

/-- The function that a module queue belongs to: the enabled virtual function whose range holds it; else the
one that used it last, so that nothing maps the queues of a function that has been disabled (EN of R365);
else the physical one. DEDUCED, log entry 50. -/
def State.ownerOf (s : State) (q : Nat) : Nat :=
  match s.enabled.find? fun f => f.qbase ≤ q && q < f.qbase + 2 ^ f.qlog with
  | some f => f.fn
  | none => ((s.queues.find? (·.id == q)).map (·.fn)).getD Config.physFn

/-- The hardware ASID of an index of a function, where it has one (R365, R368). -/
def State.asidOf (s : State) (fn idx : Nat) : Option Nat :=
  if isVf fn then
    let f := s.function fn
    if idx < f.acnt then some (f.abase + idx) else none
  else if 8192 ≤ idx || (s.enabled.any fun f => f.abase ≤ idx && idx < f.abase + f.acnt) then none
  else some idx

/-- The hardware slots of a function (R365, R368). -/
def State.slotsOf (s : State) (fn : Nat) : List Nat :=
  if isVf fn then
    let f := s.function fn
    (List.range f.snum).map (f.sbase + ·)
  else (List.range Config.slots).filter fun i =>
    !(s.enabled.any fun f => !f.ts && f.sbase ≤ i && i < f.sbase + f.snum)

/-- A function's queues may be mapped now: it is enabled, not torn down and, when time-sliced, in its turn
(R365, R369, R381). -/
def State.mayMap (s : State) (fn : Nat) : Bool :=
  if isVf fn then
    let f := s.function fn
    f.en && f.tear.isNone && (!f.ts || s.sched.turnFn == some fn)
  else true

/-- The table entry lets the queue be mapped (R372). -/
def State.mappable (s : State) (q : Nat) : Bool :=
  let e := s.qent q
  e.valid && e.clean && e.lsz ≤ 16 && (s.asidOf (s.ownerOf q) e.asidx).isSome

/-- The queue holds an unaccepted packet (R322). -/
def State.hasPacket (s : State) (q : Nat) : Bool :=
  let k := s.queue q
  !k.chain.isEmpty || (s.qent q).head % 65536 != k.tail

/-- The queue is runnable (R322). -/
def State.runnable (s : State) (q : Nat) : Bool :=
  s.hasPacket q || s.blocks.any fun k =>
    (s.launch k.launch).queue == q &&
      ((s.launch k.launch).phase == .running || (k.shadow && k.phase == .resident)) &&
      (k.phase == .resident || k.phase == .saved || (k.phase == .waiting && !k.shadow))

/-- The context of a queue under its table entry accepts what the queue brings (R373). -/
def State.queueAsid (s : State) (q : Nat) : Nat :=
  ((s.asidOf (s.ownerOf q) (s.qent q).asidx)).getD 0

/-- No debugger or migration holds the context of the queue: that of its mapping, or the one that its entry names
(R343, R372). -/
def State.unheld (s : State) (q : Nat) : Bool :=
  let k := s.queue q
  match (if k.slot.isSome then s.context? k.fn k.asid else s.context? (s.ownerOf q) (s.queueAsid q)) with
  | some c => !c.held
  | none => true

/-- Runnable queues of a function that wait for a slot. -/
def State.waitingQueues (s : State) (fn : Nat) : List Nat :=
  (s.queues.filter fun k =>
    k.slot.isNone && s.ownerOf k.id == fn && s.mayMap fn && s.runnable k.id && s.mappable k.id && s.unheld k.id).map (·.id)

/-- The next of them to be served: the most rounds waited, then the lower number (R64, R323). -/
def State.nextQueue (s : State) (fn : Nat) : Option Nat :=
  (s.waitingQueues fn).foldl (fun (acc : Option Nat) q =>
    match acc with
    | none => some q
    | some p =>
      let a := (s.queue p).waited
      let b := (s.queue q).waited
      if a < b || (a == b && q < p) then some q else some p) none

/-- The lowest free slot of a function. -/
def State.freeSlot (s : State) (fn : Nat) : Option Nat :=
  (s.slotsOf fn).find? fun i => !s.queues.any fun k => k.slot == some i

/-! Mapping (R323, R372). -/

/-- Give a queue a slot: RING, CRING, LSZ and the ASID are taken from its entry, and the stream contexts of
its launches go on (R184). DEDUCED, log entry 55. -/
def State.mapQueue (s : State) (q slot : Nat) : State :=
  let e := s.qent q
  let fn := s.ownerOf q
  let asid := s.queueAsid q
  let since := if s.time == s.sched.roundStart then s.sched.round else s.sched.round + 1
  let order := s.sched.nextMap
  let s := s.updQueue q fun k => { k with
    fn := fn, slot := some slot, ring := e.ring, cring := e.cring, lsz := e.lsz, asid := asid
    mappedRound := since, mapOrder := order, waited := 0, preempted := false, draining := false }
  let s := { s with sched := { s.sched with nextMap := order + 1 } }
  (s.resumeEngines fun x => (s.launch x.launch).queue == q).refreshRunning

/-- SLOT_GRANT (R323): a free slot goes to the queue that is next for it. -/
def execSlotGrant (queue : Nat) (s : State) : Host.Outcome State Fault Refusal :=
  let fn := s.ownerOf queue
  match s.nextQueue fn, s.freeSlot fn with
  | some q, some slot => if q == queue then .next (s.mapQueue q slot) else .next s
  | _, _ => .next s

/-- Give free slots of the functions to their waiting queues, one after another. -/
def State.grantSlots (s : State) (fns : List Nat) : Nat → State
  | 0 => s
  | fuel + 1 =>
    match fns.findSome? fun fn => match s.nextQueue fn, s.freeSlot fn with
      | some q, some slot => some (q, slot)
      | _, _ => none with
    | some (q, slot) => (s.mapQueue q slot).grantSlots fns fuel
    | none => s

/-- The functions that own queues. -/
def State.queueOwners (s : State) : List Nat := (s.queues.map fun k => s.ownerOf k.id).eraseDups

/-- ROTATION_ROUND (R323). -/
def execRotationRound (s : State) : Host.Outcome State Fault Refusal :=
  let n := s.sched.round + 1
  let s := { s with sched := { s.sched with round := n, roundStart := s.time } }
  -- queues that wait have waited one more round
  let fns := s.queueOwners
  let waiting := fns.flatMap fun fn => s.waitingQueues fn
  let s := waiting.foldl (fun s q => s.updQueue q fun k => { k with waited := k.waited + 1 }) s
  let s := (s.queues.filter fun k => k.slot.isSome && !s.runnable k.id).foldl (fun s k => s.unmap k.id) s
  let s := fns.foldl (fun s fn =>
    let want := (s.waitingQueues fn).length
    let free := ((s.slotsOf fn).filter fun i => !s.queues.any fun k => k.slot == some i).length
    let going := (s.queues.filter fun k => k.slot.isSome && k.fn == fn && k.preempted).length
    let old := sortBy (fun a b => a.mapOrder ≤ b.mapOrder) (s.queues.filter fun k =>
      k.slot.isSome && k.fn == fn && !k.preempted && k.mappedRound < n)
    (old.take (want - free - going)).foldl (fun s k => s.stopQueue k.id s.sched.choiceSave) s) s
  .next (s.grantSlots fns (s.queues.length + 1))

/-! Time slices (R369). -/

/-- The time-sliced functions that have a runnable queue, ascending. -/
def State.slicedRunnable (s : State) : List Nat :=
  sortBy (· ≤ ·) ((s.enabled.filter fun f => f.ts && f.tear.isNone && s.queues.any fun k =>
    s.ownerOf k.id == f.fn && s.runnable k.id && (k.slot.isSome || s.mappable k.id)).map (·.fn))

/-- The turn in progress is over: its slices have run out, or its function has nothing to run. -/
def State.turnOver (s : State) : Bool :=
  match s.sched.turnFn with
  | none => true
  | some fn =>
    let f := s.function fn
    !s.slicedRunnable.contains fn ||
      s.sched.turnStart + f.weight * f.sliceTicks * Config.unitsPerTick ≤ s.time

/-- SLICE_END (R369): at the end of a turn its queues are pre-empted and the next function is served; a
function that alone is runnable keeps its turn. -/
def execSliceEnd (s : State) : Host.Outcome State Fault Refusal :=
  if !s.turnOver then .next s
  else
    let rs := s.slicedRunnable
    match (match s.sched.turnFn with
      | some fn => (rs.find? (fn < ·)).orElse fun _ => rs.head?
      | none => rs.head?) with
    | none => .next s
    | some nxt =>
      let s' := { s with sched := { s.sched with turnFn := some nxt, turnStart := s.time } }
      match s.sched.turnFn with
      | none => .next s'
      | some fn =>
        if fn == nxt then .next s'
        else .next (((s'.queues.filter fun k => k.fn == fn && k.slot.isSome).map (·.id)).foldl
          (fun s q => s.stopQueue q s.sched.choiceSave) s').refreshRunning

/-! Wakes (R370, R372). -/

/-- HOST_WAKE (R370): the tail of a queue moves; a wake to a queue that no entry lets be mapped posts a
queue-fault event (R372, R374). -/
def execHostWake (fn : Nat) (value : Word) (s : State) : Host.Outcome State Fault Refusal :=
  let f := s.function fn
  let q := value.toNat % 4096
  let tail := value.toNat / 65536
  if !s.up || (isVf fn && (!f.en || f.tear.isSome || 2 ^ f.qlog ≤ q)) then .next s
  else
    let id := if isVf fn then f.qbase + q else q
    if s.ownerOf id != fn then .next s
    else
      let s := { s with queues := upsert (·.id == id) { id := id, fn := fn } (fun k => { k with tail := tail }) s.queues }
      .next (if (s.qent id).valid then s else s.postEvent ([3, fnByte fn] ++ bytesOfNat 2 id))

/-! Packets (R324, R325). -/

/-- The fields of a packet that its bytes give, at their effective values; a PWAVES or PBASE of zero is
resolved by the packet core. -/
def Packet.of (bs : List Byte) : Packet :=
  let z := fun (n d : Nat) => if n == 0 then d else n
  let up := fun (n g : Nat) => (n + g - 1) / g * g
  let fl := leAt bs 36 1
  { apc := le64At bs 0, cpc := le64At bs 8, lanes := leAt bs 16 2, vmin := z (leAt bs 18 1) 32
    vmax := z (leAt bs 19 1) 128, scr := up (leAt bs 20 4) 1024, wbuf := up (leAt bs 24 4) 4096
    abuf := up (leAt bs 28 4) 4096, cbuf := up (leAt bs 32 4) 4096
    idem := fl % 2 == 1, abort := fl / 2 % 2 == 1, gpriv := fl / 4 % 2 == 1
    gang := z (leAt bs 37 1) 1, prio := leAt bs 38 1, vtp := leAt bs 39 1, place := leAt bs 40 8
    succ := (List.range 4).map fun i => le64At bs (56 + 8 * i)
    psz := z (leAt bs 88 4) 512, pwaves := leAt bs 92 4, pbase := le64At bs 96 }

/-- Code 1: a reserved bit is set or a field lies outside its range (R325). -/
def Packet.badField (bs : List Byte) (p : Packet) (guest : Bool) : Bool :=
  let rng := fun (n : Nat) => n % 8 != 0 || n < 8 || 128 < n
  (bs.drop 104).any (· != 0) || leAt bs 36 1 / 8 != 0 || 4 ≤ p.prio || 2 ^ 52 ≤ p.place || 2 ≤ p.vtp ||
  p.lanes == 0 || 1024 < p.lanes || p.cpc == 0 || p.cpc.toNat % 4 != 0 || p.apc.toNat % 4 != 0 ||
  Config.addressTop ≤ p.cpc.toNat || Config.addressTop ≤ p.apc.toNat || rng p.vmin || rng p.vmax ||
  p.vmax < p.vmin || 4 < p.gang || leAt bs 48 8 % 64 != 0 || (p.succ.any fun a => a.toNat % 64 != 0) ||
  p.psz % 16 != 0 || 2 ^ 18 - 16 < p.psz || p.pbase.toNat % 8192 != 0 || (p.gpriv && !guest)

/-- Code 2: one block does not fit one core, or its waves cannot hold backing slots (R169, R325). -/
def Packet.badShape (p : Packet) : Bool :=
  32 < p.waveCount || (p.pwaves != 0 && p.pwaves < p.waveCount) || 2 ^ 18 < p.scr || 2 ^ 19 < p.wbuf ||
  2 ^ 18 < p.abuf || 2 ^ 18 < p.cbuf || Config.poolRegs < p.waveRegs * p.waveCount

/-- Enabled cores of a cluster of the module. -/
def State.enabledIn (s : State) (cluster : Nat) : Nat :=
  ((List.range 4).filter fun i => s.coreEnabled (4 * cluster + i)).length

/-- Code 4: no cluster of the placement set can hold the gang. -/
def State.badPlace (s : State) (mask gang : Nat) : Bool :=
  !((List.range Config.clusters).any fun c => mask.testBit c && gang ≤ s.enabledIn c)

/-- The rejection code of a packet, arguments apart; 0 where it passes (R325). DEDUCED, log entry 42. -/
def State.packetCode (s : State) (fn : Nat) (e : QEnt) (bs : List Byte) : Nat :=
  let p := Packet.of bs
  let mask := s.placement fn p
  let cores := ((List.range Config.clusters).filter fun c => mask.testBit c).map s.enabledIn |>.foldl (· + ·) 0
  let pw := if p.pwaves == 0 then 32 * cores else p.pwaves
  if Packet.badField bs p e.guest then 1
  else if p.badShape then 2
  else if e.ppsz * 8192 < p.psz * 32 * pw || (p.pbase == 0 && e.ppsz == 0) then 3
  else if s.badPlace mask p.gang then 4
  else 0

/-- The next packet of a queue: its address, ring index and whether it is a released successor (R61, R322). -/
def State.nextPacket (s : State) (q : Nat) : Option (Nat × Nat × Bool) :=
  let k := s.queue q
  match k.chain with
  | (a, ring) :: _ => some (a.toNat, ring, true)
  | [] =>
    let h := (s.qent q).head % 65536
    if h == k.tail then none
    else some (k.ring.toNat + 128 * (h % 2 ^ k.lsz), h % 2 ^ k.lsz, false)

/-- The packet is taken from the queue: HEAD advances, or the chain loses its first (R61, R325). -/
def State.takePacket (s : State) (q : Nat) (chained : Bool) : State :=
  if chained then s.updQueue q fun k => { k with chain := k.chain.drop 1 }
  else
    let h := ((s.qent q).head + 1) % 2 ^ 32
    s.devWrite (s.mregs.qtb.toNat + 64 * q + 44) (bytesOfNat 4 h)

/-- Reject a packet (R325, R326). -/
def State.rejectPacket (s : State) (q ring code : Nat) (chained : Bool) : State :=
  let k := s.queue q
  let vt := match s.context? k.fn k.asid with
    | some c => if c.torn then 0 else c.vns
    | none => 0
  (s.takePacket q chained).completion q ring 2 code 0 0 0 vt 0 chained

/-- Accept a packet: the context is created where it does not exist or went with its function's teardown, and the
launch begins with its seed blocks (R59, R324, R373). -/
def State.acceptPacket (s : State) (q ring : Nat) (chained : Bool) (e : QEnt) (p : Packet) : State :=
  let k := s.queue q
  let mask := s.placement k.fn p
  let cores := ((List.range Config.clusters).filter fun c => mask.testBit c).map s.enabledIn |>.foldl (· + ·) 0
  let p := { p with
    pwaves := if p.pwaves == 0 then 32 * cores else p.pwaves
    pbase := if p.pbase == 0 then e.ppool else p.pbase }
  let s := s.takePacket q chained
  let s := match s.context? k.fn k.asid with
    | some c => if c.torn then s.updContext k.fn k.asid fun _ => newContext k.fn k.asid else s
    | none => { s with contexts := s.contexts ++ [newContext k.fn k.asid] }
  let s := s.updContext k.fn k.asid fun c => { c with accepted := true }
  let lid := s.launches.length
  let l : Launch :=
    { fn := k.fn, asid := k.asid, queue := q, packet := p
      priv := if isVf k.fn then (if p.gpriv then 1 else 0) else 2
      counter := p.gang, nextBlock := p.gang, ringIdx := ring, chained := chained
      save := e.save, svsz := e.svsz }
  let blocks := (List.range p.gang).map fun i =>
    ({ launch := lid, index := i, member := i, gangSize := p.gang, scrSize := p.scr, wbufSize := p.wbuf
       abufSize := p.abuf, cbufSize := p.cbuf, waitSince := s.time } : Block)
  ({ s with launches := s.launches ++ [l], blocks := s.blocks ++ blocks }).refreshRunning

/-- A packet core waits for the translation of an address (R325), in die 0's fault buffer, for the manual names no die.
DESIGN CHOICE, log entry 67. -/
def State.packetMiss (s : State) (q va : Nat) : State :=
  let k := s.queue q
  let r := s.parkFault 0 k.fn k.asid va false (.packet q)
  r.1.updQueue q fun x => { x with xlate := r.2 }

/-- The first address of a span whose translation is missing. -/
def State.missAt (s : State) (fn asid va n : Nat) : Nat :=
  ((List.range n).find? fun i => (s.reach fn asid { priv := 2 } (va + i)).1 == .miss).elim va (va + ·)

/-- PACKET_ACCEPT (R325): the packet core of a mapped queue reads its next packet, in device or host memory, and
accepts or rejects it. A packet read while V has become 0 stays, and the queue gives up its slot (R372). DEDUCED, log entry 43. -/
def execPacketAccept (queue : Nat) (s : State) : Host.Outcome State Fault Refusal :=
  let k := s.queue queue
  let e := s.qent queue
  if k.slot.isNone || k.preempted || k.draining || k.xlate.isSome then .next s
  else if ((s.context? k.fn k.asid).map fun c => c.ended && !c.torn).getD false || !s.unheld queue then .next s
  else match s.nextPacket queue with
  | none => .next s
  | some (va, ring, chained) =>
    if !e.valid then
      .next ((s.postEvent ([3, fnByte k.fn] ++ bytesOfNat 2 queue)).stopQueue queue true)
    else match s.readVirt k.fn k.asid va 128 true with
    | .error .miss => .next (s.packetMiss queue (s.missAt k.fn k.asid va 128))
    | .error _ => .next (s.rejectPacket queue ring 5 chained)
    | .ok bs =>
      let code := s.packetCode k.fn e bs
      if code != 0 then .next (s.rejectPacket queue ring code chained)
      else
        let args := leAt bs 48 8
        if args == 0 then .next (s.acceptPacket queue ring chained e (Packet.of bs))
        else match s.readVirt k.fn k.asid args 64 true with
        | .error .miss => .next (s.packetMiss queue (s.missAt k.fn k.asid args 64))
        | .error _ => .next (s.rejectPacket queue ring 5 chained)
        | .ok as =>
          .next (s.acceptPacket queue ring chained e { Packet.of bs with
            args := (List.range 16).map fun i => BitVec.ofNat 32 (leAt as (4 * i) 4) })

/-! Grants of registers (R55). -/

/-- GROW_GRANT (R55): a GROW that waits in the wave, the first that the pool has room for where several fragments
wait, is granted where the age order lets it be. -/
def execGrowGrant (wave : Nat) (s : State) : Host.Outcome State Fault Refusal :=
  let waits := (s.wave wave).c.live.filterMap fun x => match x.2.park with
    | some (.grow n) => some (x.1, n)
    | _ => none
  match (waits.find? fun x => x.2 ≤ s.freeRegs (s.wave wave).core).orElse fun _ => waits.head? with
  | none => .next s
  | some (e, n) =>
    match Ctx.of? s { wave := wave, slice := .c, entry := e } with
    | some c => .next (c.grow n).state
    | none => .next s

/-! The host's end of a launch and single steps (R339, R346). -/

/-- HOST_ENDS_LAUNCH (R339): with an error record that names no instruction. -/
def execHostEndsLaunch (launch : Nat) (s : State) : Host.Outcome State Fault Refusal :=
  if s.launches.length ≤ launch then .next s
  else .next ((s.endNote launch).endLaunch launch true)

/-- The queue gets a slot for a single step, whatever else waits, where its function and its entry let it be mapped
(R365, R369, R372). -/
def State.stepSlot (s : State) (q : Nat) : State :=
  if (s.queue q).slot.isSome || !s.mayMap (s.ownerOf q) || !s.mappable q then s
  else match s.freeSlot (s.ownerOf q) with
    | some slot => s.mapQueue q slot
    | none => s

/-- SINGLE_STEP (R346): in a context that a debugger has stopped, one fragment is released for one
instruction; the step ends when it has completed and settled. A block that the stop discarded starts again from its
entry, and the wave named is the one of the same index (R336). -/
def execSingleStep (wave : Nat) (slice : Slice) (entry : Nat) (s : State) :
    Host.Outcome State Fault Refusal :=
  let b := (s.wave wave).block
  let k := s.block b
  let l := s.launch k.launch
  let c := s.context l.fn l.asid
  if !c.debugStop || c.running || (s.mappedOf l.fn l.asid).any (fun q => (s.queue q).preempted) || c.exporting || c.migrated || c.ended then .next s
  else
    let s1 := s.stepSlot l.queue
    if (s1.queue l.queue).slot.isNone then .next s
    else match (if k.phase == .saved || (k.phase == .waiting && k.begun) then s1.placeCore b else none) with
      | none => .next s
      | some core =>
        let s2 := s1.placeBlock b core
        let i := (k.waves.findIdx? (· == wave)).getD 0
        let r : FragRef := { wave := (s2.block b).waves.getD i wave, slice := slice, entry := entry }
        if (s2.frag r).isNone then .next s
        else
          let s3 := s2.updContext l.fn l.asid fun c => { c with debugStop := false, stepping := true, released := some r }
          .next { s3.refreshRunning with agenda := .issue r :: s3.agenda }

end Sys2Proof.Machine
end

