-- ==== Sys2Proof/Machine/Partition.lean ====
section
/-!
DEFINITION. Partitions: the VF registers, teardown, context reset, counter banks, peers and ports, and the
translation and coherence events of system software and the host (R200, R201, R364 to R368, R373, R375 to
R382, R416).
-/

namespace Sys2Proof.Machine

/-! VF registers (R365, R366). -/

/-- The bits of a VF register that a write may set; TEAR is apart. -/
def vfMask : Nat → Word
  | 0x201 => 0x00FFFFF3
  | 0x202 => 0xFFFFFFFF
  | 0x203 => 0x000FFFFF
  | 0x204 => 0xFFFFFFFF
  | 0x205 => 0x00FFFFFF
  | 0x206 => 0xFFFFFF7F
  | 0x207 => 0x00FFFFFF
  | 0x208 => 0x3FFF1FFF
  | _ => 0

/-- The value of a VF register as it reads. -/
def Function.vfReg (f : Function) : Nat → Word
  | 0x201 => f.cfg ||| (if f.tear.isSome then 4 else 0)
  | 0x202 => f.clusLo
  | 0x203 => f.clusHi
  | 0x204 => f.memLo
  | 0x205 => f.memHi
  | 0x206 => f.vfq
  | 0x207 => f.slice
  | 0x208 => f.asids
  | _ => 0

/-- A VF register replaced. -/
def Function.setVfReg (f : Function) (num : Nat) (v : Word) : Function :=
  match num with
  | 0x201 => { f with cfg := v }
  | 0x202 => { f with clusLo := v }
  | 0x203 => { f with clusHi := v }
  | 0x204 => { f with memLo := v }
  | 0x205 => { f with memHi := v }
  | 0x206 => { f with vfq := v }
  | 0x207 => { f with slice := v }
  | 0x208 => { f with asids := v }
  | _ => f

/-- The fields stay inside their limits (R365). -/
def Function.inLimits (f : Function) : Bool :=
  f.scb + f.scn ≤ 8 && f.sbase + f.snum ≤ 128 && f.qlog ≤ 12 && f.qbase + 2 ^ f.qlog ≤ 4096 &&
  f.abase + f.acnt ≤ 8192

/-- Two functions share a cluster or a slot. -/
def Function.shares (f g : Function) : Bool :=
  Nat.land f.clus g.clus != 0 || (f.sbase < g.sbase + g.snum && g.sbase < f.sbase + f.snum && 0 < f.snum && 0 < g.snum)

/-- Why EN may not rise (R366). -/
def State.enableBad (s : State) (f : Function) : Bool :=
  let others := s.enabled.filter fun g => g.fn != f.fn
  f.tear.isSome || (!f.ts && others.any f.shares) || (f.ts && others.any fun g => !g.ts && f.shares g) ||
  (others.any fun g => f.abase < g.abase + g.acnt && g.abase < f.abase + f.acnt && 0 < f.acnt && 0 < g.acnt) ||
  (f.ts && f.sliceTicks == 0) || (f.nen && others.any fun g => g.nen && g.node == f.node)

/-- A write that EN = 1 forbids: of a field other than EN, TEAR, SLICE and WEIGHT (R366). -/
def vfFrozen (num : Nat) (old new : Word) : Bool :=
  num != 0x207 && (if num == 0x201 then (old &&& 0xFFFFFFFE) != (new &&& 0xFFFFFFFE) else old != new)

/-- The bytes of the VF registers with the VF number, which MR5 is extended with (R409). -/
def Function.vfBytes (f : Function) : List Byte :=
  bytesOfNat 4 f.fn ++ (List.range 8).flatMap fun i => bytesOfWord (f.vfReg (0x201 + i))

/-- Extend a measurement register by a digest (R409). -/
def State.extendMr (s : State) (i : Nat) (d : List Byte) : State :=
  let f := fun (m : BitVec 384) => Config.sha384 (bytesOfNat 48 m.toNat ++ d)
  { s with trust := { s.trust with mrs := s.trust.mrs.modify i f } }

/-- The 48 bytes of a digest of a byte string. -/
def digestOf (bs : List Byte) : List Byte := bytesOfNat 48 (Config.sha384 bs).toNat

/-! Teardown (R381). -/

/-- The contexts of a function. -/
def State.contextsOf (s : State) (fn : Nat) : List Nat := (s.contexts.filter (·.fn == fn)).map (·.asid)

/-- Put a response in a function's mailbox. -/
def State.respond (s : State) (fn : Nat) (bs : List Byte) : State :=
  { s with trust := { s.trust with responses := upsert (·.1 == fn) (fn, bs) (fun _ => (fn, bs)) s.trust.responses } }

/-- An SPDM response code with a body; DESIGN CHOICE, log entry 15. -/
def spdm (code : Nat) (body : List Byte) : List Byte := BitVec.ofNat 8 code :: body
/-- StandardID and VendorID of the vendor-defined requests (R411). -/
def vendorStandard : Nat := 4
def vendorId : Nat := 0x00032C1F

/-- VENDOR_DEFINED_RESPONSE: StandardID, VendorID and the payload of R411, laid out as SPDM 1.2 has it. PRESUMED, log entry
15. -/
def vendorResponse (cmd status : Nat) : List Byte :=
  spdm 0x7E (bytesOfNat 2 vendorStandard ++ [4] ++ bytesOfNat 4 vendorId ++ bytesOfNat 2 2 ++
    [BitVec.ofNat 8 (128 + cmd), BitVec.ofNat 8 status])

/-- A request of R411 that the policy core has in hand for a VF is refused as its teardown begins, so that no key is
installed after it (R411, R414). -/
def State.refuseVendor (s : State) (fn : Nat) : State :=
  let s := match s.trust.unfinished.find? (·.1 == fn) with
    | some (_, cmd, _) => s.respond fn (vendorResponse cmd 3)
    | none => s
  { s with trust := { s.trust with
    slow := s.trust.slow.filter (· != fn), unfinished := s.trust.unfinished.filter (·.1 != fn) } }

/-- Steps 1 to 4 of a teardown (R381); the dump key goes (R412), and the contexts end: of each there stays that it
has ended, so that CRST, or a packet, creates it anew (R373). DEDUCED, log entry 56. -/
def State.teardown (s : State) (fn : Nat) : State :=
  let s := (s.contextsOf fn).foldl (fun s a => s.endContext fn a false) s
  let s := s.cutCopies fn
  let s := (List.range s.launches.length).foldl (fun s l => if (s.launch l).fn == fn then s.goEnd l else s) s
  let s := { s with
    contexts := updAll (fun (c : Context) => c.fn == fn)
      (fun c => { newContext c.fn c.asid with ended := true, torn := true, running := false }) s.contexts
    queues := s.queues.filter (·.fn != fn)
    peers := updAll (fun (p : PeerReq) => p.fn == fn && p.st == PeerState.pending) (fun p => { p with st := .orphan }) s.peers
    faults := s.faults.filter fun r => r.fn != fn || (match r.who with | .peer _ _ _ _ _ => true | _ => false) }
  let s := s.updFunction fn fun f => { f with
    cfg := f.cfg &&& 0xFFFFFFFE, tear := some { since := s.time }, dumpKey := none }
  (s.refuseVendor fn).refreshRunning

/-- Every reservation of the function is answered or lapsed, or 2,000 real ticks have passed (R381). -/
def State.quarantineOver (s : State) (fn : Nat) (t : Teardown) : Bool :=
  !(s.peers.any fun p => p.fn == fn && p.st == PeerState.orphan) ||
    t.since + Config.reservationLife * Config.unitsPerTick ≤ s.time

/-- TEARDOWN_COMPLETE (R381): TEAR falls and event 2 carries the orphan count. -/
def execTeardownComplete (vf : Nat) (s : State) : Host.Outcome State Fault Refusal :=
  match (s.function vf).tear with
  | none => .next s
  | some t =>
    if !s.quarantineOver vf t then .next s
    else
      let s := s.updFunction vf fun f => { f with tear := none }
      let gone := fun (p : PeerReq) => { p with st := .answered .vfGone }
      let s := { s with peers := updAll (fun (p : PeerReq) => p.fn == vf && p.st == PeerState.orphan) gone s.peers }
      .next (s.postEvent ([2, fnByte vf, 0, 0] ++ bytesOfNat 4 t.orphans))

/-- Write a VF register of a VF (R365, R366); none where the value is rejected. -/
def State.writeVf (s : State) (vf num : Nat) (v : Word) : Option State :=
  let f := s.function vf
  let new := v &&& vfMask num
  let g := f.setVfReg num new
  let tear := num == 0x201 && v.getLsbD 2
  if !g.inLimits then none
  else if f.en && vfFrozen num (f.vfReg num &&& vfMask num) new then none
  else if num == 0x201 && !f.en && g.en && (tear || s.enableBad g) then none
  else
    let s1 := s.updFunction vf fun _ => g
    if tear && f.tear.isNone then some (s1.teardown vf)
    else if num == 0x201 && f.en && !g.en then
      some ((((s1.queues.filter fun k => k.fn == vf && k.slot.isSome).map (·.id)).foldl
        (fun s q => s.stopQueue q true) s1).refreshRunning)
    else if num == 0x201 && !f.en && g.en then some (s1.extendMr 5 (digestOf g.vfBytes))
    else some s1

/-- The state after a host's write that may be rejected; in recovery there is no register but the mailbox's (R407,
R408). -/
def State.orSame (s : State) (r : Option State) : State := if s.inRecovery then s else r.getD s

/-- VF_ENABLE (R366): the write of VFCFG that sets EN. -/
def execVfEnable (vf : Nat) (s : State) : Host.Outcome State Fault Refusal :=
  .next (if isVf vf then s.orSame (s.writeVf vf 0x201 ((s.function vf).cfg ||| 1)) else s)
/-- VF_DISABLE (R365): the write of VFCFG that clears EN. -/
def execVfDisable (vf : Nat) (s : State) : Host.Outcome State Fault Refusal :=
  .next (if isVf vf then s.orSame (s.writeVf vf 0x201 ((s.function vf).cfg &&& 0xFFFFFFFE)) else s)
/-- TEAR (R381): the write of 1 to TEAR. -/
def execTear (vf : Nat) (s : State) : Host.Outcome State Fault Refusal :=
  .next (if isVf vf then s.orSame (s.writeVf vf 0x201 ((s.function vf).cfg ||| 4)) else s)

/-- Write VFSEL; none where the value is rejected (R365). -/
def State.writeVfsel (s : State) (v : Word) : Option State :=
  if 95 < v.toNat then none else some { s with mregs := { s.mregs with vfsel := v } }

/-- VFSEL (R365). -/
def execVfsel (value : Word) (s : State) : Host.Outcome State Fault Refusal :=
  .next (s.orSame (s.writeVfsel value))

/-! Contexts (R373, R412). -/

/-- The host ends a launch (R339). DEDUCED, log entry 43. -/
def State.hostEnd (s : State) (lid : Nat) : State :=
  (s.endNote lid).endLaunch lid true

/-- A write of CRST (R373): a context that runs ends its launches first, their copies drained; then the context is as new,
and the dump key of its function is cleared (R412). DEDUCED, log entry 56. -/
def State.writeCrst (s : State) (v : Word) : State :=
  let fn := if v.getLsbD 7 then Config.physFn else v.toNat % 128
  let asid := v.toNat / 256 % 8192
  if !s.up || !v.getLsbD 31 || !(v.getLsbD 7 || isVf fn) then s
  else
    let s := s.updFunction fn fun f => { f with dumpKey := none }
    match s.context? fn asid with
    | none => s
    | some _ =>
      let ls := (List.range s.launches.length).filter fun l => (s.launch l).fn == fn && (s.launch l).asid == asid
      let s := ls.foldl (fun s l => s.hostEnd l) s
      let s := (s.endContext fn asid true).updContext fn asid fun c => { c with reborn := true }
      (s.recreate fn asid).refreshRunning

/-- CRST (R370, R373). -/
def execCrst (value : Word) (s : State) : Host.Outcome State Fault Refusal := .next (s.writeCrst value)

/-! Counter banks (R375). -/

/-- Bit k of a field of CBCLAIM. -/
def claimBit (c : Word) (field k : Nat) : Bool := c.getLsbD (4 * field + k)

/-- CBCLAIM with bit k of its fields [CLM, HELD, BUSY, OVL, HCL] given by `f`. -/
def claimWord (f : Nat → Nat → Bool) : Word :=
  BitVec.ofNat 32 ((List.range 20).foldl (fun n i => n + if f (i / 4) (i % 4) then 2 ^ i else 0) 0)

/-- A guest's write of CBCLAIM: claims, releases, and ones to BUSY. DEDUCED, log entry 41. -/
def guestClaim (c v : Word) : Word :=
  claimWord fun field k =>
    let clm := claimBit v 0 k
    let held := claimBit c 1 k
    let hcl := claimBit c 4 k
    match field with
    | 0 => clm
    | 1 => clm && (held || !hcl)
    | 2 => (claimBit c 2 k && !claimBit v 2 k) || (clm && !held && hcl)
    | 3 => claimBit c 3 k && clm
    | _ => hcl

/-- A hypervisor's claims: taking a held bank freezes it, giving one up thaws it. -/
def hostClaim (c : Word) (hcl : Nat) : Word :=
  claimWord fun field k =>
    match field with
    | 3 => hcl.testBit k && claimBit c 1 k
    | 4 => hcl.testBit k
    | _ => claimBit c field k

/-- The hypervisor's operation on every context of the VF that VFSEL names. -/
def State.hypervisorClaim (s : State) (hcl : Nat) : State :=
  let vf := s.mregs.vfsel.toNat
  { s with contexts := s.contexts.map fun c => if c.fn == vf then { c with claims := hostClaim c.claims hcl } else c }

/-- A write of CBCLAIM at a privilege: the hypervisor's operation comes first. -/
def State.writeClaim (s : State) (fn asid : Nat) (v : Word) (host : Bool) : State :=
  let s := if host then s.hypervisorClaim (v.toNat / 65536 % 16) else s
  s.updContext fn asid fun c => { c with claims := guestClaim c.claims v }

/-- COUNTER_CLAIM (R375): a guest's write of CBCLAIM. -/
def execCounterClaim (fn asid : Nat) (value : Word) (s : State) : Host.Outcome State Fault Refusal :=
  .next (s.writeClaim fn asid value false)
/-- HYPERVISOR_CLAIM (R375). -/
def execHypervisorClaim (hcl : BitVec 4) (s : State) : Host.Outcome State Fault Refusal :=
  .next (s.hypervisorClaim hcl.toNat)

/-! Peers (R260, R377, R378, R382). -/

/-- Give a request of this module its answer: an orphan's is absorbed and counted. -/
def State.answerPeer (s : State) (id : Nat) (a : PeerAnswer) : State :=
  match s.peers[id]? with
  | none => s
  | some p =>
    let done := fun (s : State) (a : PeerAnswer) =>
      { s with peers := s.peers.modify id fun q => { q with st := .answered a } }
    match p.st with
    | .pending => (done s a).countNak p.wave p.default a
    | .orphan =>
      (done s .vfGone).updFunction p.fn fun f => { f with tear := f.tear.map fun t => { t with orphans := t.orphans + 1 } }
    | .answered _ => s

/-- A peer's access at the target: its answer goes back, or the access waits for a translation, in a fault buffer or,
where that is full, until it executes again (R200, R378); DESIGN CHOICE, log entry 67: in die 0's. -/
def State.servePeer (s : State) (fn : Nat) (node : BitVec 12) (off : Nat) (ask : PeerAsk) (own : Option Nat) :
    State :=
  match s.peerAccess fadd32 fn off ask with
  | (s1, .done a) =>
    match own with
    | some id => s1.answerPeer id a
    | none => { s1 with outbox := { s1.outbox with peerReplies := (node, a) :: s1.outbox.peerReplies } }
  | (s1, .miss asid va) =>
    let write := match ask with | .load _ => false | _ => true
    s1.parkPeer fn asid va write (.peer fn node off ask own)

/-- PEER_REQUEST (R378). -/
def execPeerRequest (fn : Nat) (node : BitVec 12) (off : Nat) (ask : PeerAsk) (s : State) :
    Host.Outcome State Fault Refusal :=
  .next (s.servePeer fn node off ask none)

/-- PEER_REPLY (R260, R382). DESIGN CHOICE, log entry 12. -/
def execPeerReply (req : Nat) (answer : PeerAnswer) (s : State) : Host.Outcome State Fault Refusal :=
  .next (s.answerPeer req answer)

/-- RESERVATION_LAPSE (R378): after 2,000 real ticks the access completes as refused; a message then finds its
destination absent. An orphan lapses uncounted. DEDUCED, log entry 57. -/
def execReservationLapse (req : Nat) (s : State) : Host.Outcome State Fault Refusal :=
  match s.peers[req]? with
  | none => .next s
  | some p =>
    if s.time < p.since + Config.reservationLife * Config.unitsPerTick then .next s
    else match p.st with
      | .pending => .next (s.answerPeer req (if p.msg then .vfGone else .refused))
      | .orphan => .next { s with peers := s.peers.modify req fun q => { q with st := .answered .vfGone } }
      | .answered _ => .next s

/-! Ports (R380, R400, R401). -/

/-- Real ticks of an hour. -/
def hourTicks : Nat := 3600000000

/-- Count corrected symbols on a lane, Zarorniz lanes first and FeleloLink's from 144 on (R400); more than 10⁶ of one hour write a record of kind 11, once (R401). -/
def State.countSymbols (s : State) (lane n : Nat) : State :=
  let h := s.ticks / hourTicks
  let old := (s.maint.fec.find? (·.lane == lane)).getD { lane := lane }
  let before := if old.hour == h then old.count else 0
  let x : LaneCount := { lane := lane, total := old.total + n, hour := h, count := before + n }
  let s := { s with maint := { s.maint with fec := upsert (·.lane == lane) x (fun _ => x) s.maint.fec } }
  if before ≤ 1000000 && 1000000 < before + n then
    s.record { kind := 11, unit := if lane < 144 then 15 else 16, loc := if lane < 144 then lane / 4 else 0, rtime := s.ticks, count := before + n } none
  else s

/-- FLIT_RECEIVE (R380): a slot is counted, intact or not; sixteen failures on end retrain the port and post
event 5. A failure requests a retry, which takes a slot of the other direction. -/
def execFlitReceive (port : Fin 36) (intact : Bool) (lane : Fin 4) (symbols : Nat) (s : State) :
    Host.Outcome State Fault Refusal :=
  let p := s.ports.getD port {}
  let p := { p with recvSlots := p.recvSlots + 1 }
  let put := fun (s : State) (p : Port) => { s with ports := s.ports.set port p }
  let s := if symbols == 0 then s else s.countSymbols (4 * port + lane) symbols
  if intact then .next (put s { p with fails := 0 })
  else if p.fails + 1 < 16 then .next (put s { p with fails := p.fails + 1, sendSlots := p.sendSlots + 1 })
  else
    .next ((put s { p with fails := 0, retrains := p.retrains + 1, sendSlots := p.sendSlots + 1 }).postEvent
      [5, 127, BitVec.ofNat 8 port.val])

/-- 2^32 slots of a direction have gone under its key (R380): key `epoch`, 1 being the key of boot, serves up to slot
2^32 * epoch. -/
def keyDue (slots epoch : Nat) : Bool := epoch != 0 && 2 ^ 32 * epoch ≤ slots

/-- KEY_RENEWAL (R380): firmware renews the key of one direction of a port, once 2^32 slots have gone under the old
one. -/
def execKeyRenewal (port : Fin 36) (receive : Bool) (s : State) : Host.Outcome State Fault Refusal :=
  .next { s with ports := s.ports.modify port fun p =>
    if receive then (if keyDue p.recvSlots p.recvEpoch then { p with recvEpoch := p.recvEpoch + 1 } else p)
    else if keyDue p.sendSlots p.sendEpoch then { p with sendEpoch := p.sendEpoch + 1 } else p }

/-- A port sends `n` flit slots, replays included (R380). -/
def State.sendSlots (s : State) (port n : Nat) : State :=
  { s with ports := s.ports.modify port fun p => { p with sendSlots := p.sendSlots + n } }

/-! Host memory (R376). -/

/-- The host writes bytes of its memory: the lines that the device holds of their sectors go first (R376). -/
def State.hostStore (s : State) (a : Nat) (bs : List Byte) : State :=
  let hit := fun (c : LineCopy) => c.key.place == .host && a / 32 ≤ c.key.idx && 32 * c.key.idx < a + bs.length
  (s.writeOuts hit).writeBytes .host a bs

/-- HOST_COHERENCE_INVALIDATION (R376): the host writes a sector of its memory; the lines that the device holds of it
go first. -/
def execHostCoherenceInvalidation (sector : Nat) (bytes : List Byte) (s : State) :
    Host.Outcome State Fault Refusal :=
  let s := s.writeOuts fun c => c.key == { place := .host, idx := sector }
  .next (s.hostStore (32 * sector) (bytes.take 32))

/-- EVICTION (R416): the copies of a sector at a place write the bytes written into them outward and are dropped.
DEDUCED, log entry 8. -/
def execEviction (core cluster : Option Nat) (sector : Nat) (s : State) : Host.Outcome State Fault Refusal :=
  .next (s.writeOuts fun c => c.core == core && c.cluster == cluster && c.key.idx == sector)

/-! Translation (R200, R201). -/

/-- The loads of a wave up to the last that has a lane in a range of virtual addresses, which it has translated: they
return now (R201). -/
def State.deliverLoads (s : State) (lo hi w : Nat) : State :=
  let hit := fun (l : Load) => l.lanes.any fun x => !x.place.isLocal && x.va ≤ hi && lo < x.va + l.size
  match ((s.wave w).loads.reverse).find? hit with
  | none => s
  | some last => ((s.wave w).loads.filter fun l => l.id ≤ last.id).foldl (fun s l => s.loadReturn w l.id) s

/-- TLB_INVALIDATION (R201): the matching entries are dropped everywhere, the loads and strong stores of the context that
have been translated are delivered, and the host has its acknowledgement; none in recovery (R407). DEDUCED, log entry 84. -/
def execTlbInvalidation (fn asid lo hi : Nat) (s : State) : Host.Outcome State Fault Refusal :=
  if s.inRecovery then .next s else
  let stays := fun (x : TlbEntry) => !(x.fn == fn && x.asid == asid && x.base ≤ hi && lo < x.base + x.size)
  let s : State := { s with
    cores := s.cores.map fun c => { c with tlb := c.tlb.filter stays }
    clusters := s.clusters.map fun c => { c with tlb := c.tlb.filter stays } }
  let s := (s.wavesOf fn asid).foldl (fun s w => s.deliverLoads lo hi w) s
  let s := s.flushEgress fun e => (s.launch e.launch).fn == fn && (s.launch e.launch).asid == asid
  .next { s with outbox := { s.outbox with acks := (fn, asid, lo, hi) :: s.outbox.acks } }

/-- TRANSLATION_FILL (R200): system software has filled the entry; the request leaves the fault buffer and what
waited for it executes again. -/
def execTranslationFill (die req : Nat) (s : State) : Host.Outcome State Fault Refusal :=
  match s.faults.find? fun f => f.die == die && f.id == req with
  | none => .next s
  | some f =>
    let s := { s with faults := s.faults.filter fun x => x.id != req }
    match f.who with
    | .frag r => .next (s.updWave r.wave fun w => w.setStream r.slice
        ((w.stream r.slice).mapFrags fun f => if f.park == some (.xlate req) then { f with park := none } else f))
    | .copy core idx => .next (s.updCore core fun k => { k with
        copies := updAll (·.idx == idx) (fun c => { c with park := none }) k.copies })
    | .engine e k => .next (s.updXctx e k fun x => { x with xlate := none, phase := .running })
    | .packet q => .next (s.updQueue q fun x => { x with xlate := none })
    | .report q => .next ((s.updQueue q fun x => { x with reportWait := none }).sendReports q (s.queue q).reports.length)
    | .peer fn node off ask own => .next (s.servePeer fn node off ask own)

/-- FAULT_BUFFER_RETRY (R200): what a full buffer of the die refused executes again: instructions, and in die 0 peers'
accesses and completion records (log entry 67). -/
def execFaultBufferRetry (die : Nat) (s : State) : Host.Outcome State Fault Refusal :=
  let again := fun (f : Frag) => { f with park := if f.park == some .refused then none else f.park }
  let s1 : State := { s with
    waves := s.waves.map fun w => if dieOf w.core == die then w.mapFrags again else w
    refused := s.refused.filter (·.die != die) }
  let serve := fun (t : State) (f : FaultReq) => match f.who with
    | .peer fn node off ask own => t.servePeer fn node off ask own
    | _ => t
  let s2 := (s.refused.filter (·.die == die)).foldl serve s1
  .next (if die != 0 then s2 else s2.queues.foldl (fun (t : State) q => t.sendReports q.id q.reports.length) s2)

end Sys2Proof.Machine
end

