-- ==== Sys2Proof/Machine/Reliability.lean ====
section
/-!
DEFINITION. Strikes and rollback, replay, the redundant screen, error-correcting codes, the lifetime log, trace
samples, the lane-cycle record, self-test and the dump engine (R390 to R405).
-/

namespace Sys2Proof.Machine

/-! Rollback (R391, R393). -/

/-- A list with the places replaced at which `y` differs from `x`. -/
def patch {α : Type} [DecidableEq α] (o x y : List α) : List α :=
  (List.range o.length).filterMap fun i =>
    if x[i]? = y[i]? then o[i]? else (y[i]?).orElse fun _ => o[i]?

/-- Registers with the changes between two states put in, lane by lane. -/
def Regs.patched (o x y : Regs) : Regs :=
  { v := (List.range o.v.length).map fun i => patch (o.vec i) (x.vec i) (y.vec i)
    s := patch o.s x.s y.s, p := patch o.p x.p y.p }

/-- Put the changes that a held instruction made when it performed into an earlier state of its wave, if that
state still holds the instruction: its fragment, the registers and queue entries it wrote, the operand
latch, SLIP and ESEQ. -/
def Performed.apply (p : Performed) (w : Wave) : Wave :=
  let sl := p.ref.slice
  let st := w.stream sl
  let held := match st.frag p.ref.entry with
    | some f => (f.hold.map fun h => h.issued == p.issued).getD false
    | none => false
  if !held then w
  else
    let b := p.before.stream sl
    let a := p.after.stream sl
    let regs := st.regs.patched b.regs a.regs
    let w := w.setStream sl { (st.setFrag p.ref.entry (a.frag p.ref.entry)) with regs := regs }
    let w := regionQueues.foldl (fun (w : Wave) x =>
      (p.after.fifo x).entries.foldl (fun (w : Wave) e =>
        if (p.before.fifo x).entries.contains e then w else w.setFifo x ((w.fifo x).fill e.id e.st)) w) w
    { w with
      latch := if p.before.latch = p.after.latch then w.latch else p.after.latch
      slip := if p.before.slip == p.after.slip then w.slip else p.after.slip
      eseq := w.eseq + (p.after.eseq - p.before.eseq) }

/-- What reached a wave from outside, applied again. -/
def Input.apply (w : Wave) : Input → Wave
  | .timer sl n low => w.dueTimer sl n low
  | .fire n => w.wakeTimer n
  | .token t err => w.endToken t err
  | .wake off h => w.wake off h

/-- A fragment as a rollback leaves it: an instruction still held in both states stands as it does now, a
fragment parked on the same cell keeps its wake, and a wait that has ended meanwhile is over. -/
def rollFrag (live : Nat → Bool) (now old : Frag) : Frag :=
  let f := match old.hold, now.hold with
    | some h, some k => if h.issued == k.issued && h.seq == k.seq then { old with hold := some k, park := now.park } else old
    | _, _ => old
  match f.park, now.park with
  | some (.cell o p _ _), some (.cell o' p' w h) =>
    if o == o' && p == p' && f.pc == now.pc then { f with park := some (.cell o p w h) } else f
  | some (.xlate r), _ => if live r then f else { f with park := none }
  | some .refused, _ => { f with park := none }
  | _, _ => f

/-- Combine every fragment of an earlier state with the present one. -/
def rollStream (live : Nat → Bool) (now old : Stream) : Stream :=
  { old with
    frags := (List.range old.frags.length).map fun e => match old.frag e, now.frag e with
      | some f, some g => some (rollFrag live g f)
      | x, _ => x
    region := match old.region, now.region with
      | some a, some b =>
        if a.opened == b.opened then some { a with undo := b.undo, spilled := a.spilled || b.spilled } else some a
      | a, _ => a }

/-- Undo the restart of a region since `t` (R335): the sectors and the unsettled stores that it took away come back,
and the region is open as it was. -/
def unrestart (t : Nat) (now : Wave) (x : Snapshot) : Wave :=
  match x.restarted with
  | none => now
  | some sl =>
    match (x.state.stream sl).region with
    | none => now
    | some g =>
      let mine := fun (k : Sector) => g.undo.any (·.1 == k.key)
      let back := x.state.pend.filter fun p => p.slice == sl && g.opened ≤ p.seq && p.issued < t && !now.pend.contains p
      let now := { now with
        wwb := (now.wwb.filter fun k => !mine k) ++ x.state.wwb.filter mine
        pend := sortBy (fun a b => a.seq ≤ b.seq) (now.pend ++ back) }
      now.setStream sl { now.stream sl with region := some g }

/-- A wave restored to an earlier state of itself (R391). The settled sectors of the WWB and of the stack cache stand, for
nothing issued since `t` has settled; stores issued since are gone. -/
def rollWave (live : Nat → Bool) (t : Nat) (now old : Wave) : Wave :=
  let w := { old with
    wwb := now.wwb, priv := now.priv, cache := now.cache
    pend := now.pend.filter (·.issued < t), privPend := now.privPend.filter (·.issued < t)
    conflict := now.conflict || old.conflict, spilled := now.spilled || old.spilled
    spillLevel := max now.spillLevel old.spillLevel }
  let w := { w with c := rollStream live now.c w.c }
  match now.a, w.a with
  | some a, some b => { w with a := some (rollStream live a b) }
  | _, _ => w

/-- Restore one wave of a core from the first snapshot taken at or after `t`; the restarts of its regions since are
undone, the latest first. -/
def State.rollOne (s : State) (core t w : Nat) : State :=
  let c := s.core core
  let now := s.wave w
  match if now.retired then none else c.history.find? fun h => h.wave == w && t ≤ h.cycle with
  | none => s
  | some snap =>
    let live := fun (r : Nat) => s.faults.any (·.id == r)
    let now := ((c.history.filter fun h => h.wave == w && t ≤ h.cycle).reverse).foldl (unrestart t) now
    let x := (c.performed.filter fun p => p.ref.wave == w && p.issued < t && t ≤ p.done).foldl
      (fun x p => p.apply x) (rollWave live t now snap.state)
    let x := (c.inputs.filter fun i => i.2.1 == w && snap.mark ≤ i.1).foldl (fun x i => Input.apply x i.2.2) x
    s.updWave w fun _ => x

/-- Copies and held uses that issued at or after `t` are withdrawn. -/
def State.withdraw (s : State) (core t : Nat) (ws : List Nat) : State :=
  let users := ws.flatMap fun w => (s.wave w).frags.flatMap fun f => match f.hold with
    | some h => if t ≤ h.issued then h.users else []
    | none => []
  let late := (s.core core).copies.filter fun c => t ≤ c.issued
  let users := users ++ late.flatMap fun c => c.src.handle.toList ++ c.dst.handle.toList
  let s := users.foldl (fun s h => s.dropUser core h) s
  s.updCore core fun c => { c with copies := c.copies.filter fun x => x.issued < t }

/-- Roll a core back to `t`; a trap taken since is undone, one that ended its launch included (R391, R393). DESIGN CHOICE,
log entry 11. -/
def State.rollback (s : State) (core t : Nat) : State :=
  let s := s.undoEnds core t
  let ws := s.residents core
  let s := s.withdraw core t ws
  let s := ws.foldl (fun s w => s.rollOne core t w) s
  let s := s.updCore core fun c => { c with
    history := c.history.filter (·.cycle < t)
    shrunk := c.shrunk.filter (·.2 < t)
    replay := c.replay.filter (·.issued < t) }
  let stands := fun (f : FaultReq) => match f.who with
    | .frag r => !ws.contains r.wave || ((s.frag r).map fun x => x.park == some (.xlate f.id)).getD false
    | _ => true
  let s := { s with faults := s.faults.filter stands }
  let ctxs := (ws.map fun w => ((s.launch (s.launchOf w)).fn, (s.launch (s.launchOf w)).asid)).eraseDups
  ctxs.foldl (fun s c => s.count c.1 c.2 6 1) s

/-- Exclude a core until module reset (R399). -/
def State.exclude (s : State) (core : Nat) : State :=
  { s with maint := { s.maint with excluded := addOwner s.maint.excluded core } }

/-- Count a rollback of a core in the strike table, by its temperature band (R400). -/
def State.countStrike (s : State) (core : Nat) : State :=
  let band := min 7 (Config.temperatureBand s.cycle core)
  let l := upsert (fun (x : Nat × Nat × Nat) => x.1 == core && x.2.1 == band) (core, band, 0)
    (fun x => (x.1, x.2.1, x.2.2 + 1)) s.maint.strikes
  { s with maint := { s.maint with strikes := l } }

/-- Sixteen rollbacks within 100,000 cycles degrade the core: its blocks are pre-empted with save, a gang as a whole, and
it is excluded (R336, R393). -/
def State.degrade (s : State) (core : Nat) : State :=
  let bs := ((List.range s.blocks.length).filter fun b =>
    (s.block b).phase == .resident && (s.block b).core == core).flatMap s.whole
  let s := bs.foldl (fun s b => s.updBlock b fun k => { k with stopping := true }) s
  (s.exclude core).record { kind := 10, loc := locOfCore core 0, rtime := s.ticks } none

/-- STRIKE_REPORT (R391): the core goes back 128 cycles; a core that HMAP disables is not there (R18). DEDUCED, log
entry 58. -/
def State.strike (s : State) (core : Nat) : State :=
  if !s.coreEnabled core then s else
  let s := s.rollback core (s.cycle - Config.settle)
  let s := s.updCore core fun c => { c with
    rollbacks := (s.cycle :: c.rollbacks).filter fun t => s.cycle < t + 100000 }
  let s := (s.countStrike core).record { kind := 1, loc := locOfCore core 0, rtime := s.ticks } none
  if 16 ≤ (s.core core).rollbacks.length && !s.maint.excluded.contains core then s.degrade core else s

/-- STRIKE_REPORT (R391). -/
def execStrikeReport (core : Nat) (s : State) : Host.Outcome State Fault Refusal := .next (s.strike core)

/-- UNCORE_STRIKE (R392): a command of the die's engines that has paused before it counted restarts from its start, and
no program-visible state changes. -/
def execUncoreStrike (die : Nat) (s : State) : Host.Outcome State Fault Refusal :=
  let again := fun (x : XCtx) => { x with written := 0 }
  .next ({ s with engines := updAll (fun (x : XCtx) => x.engine / 8 == die % 4) again s.engines }.record
    { kind := 1, loc := die % 4, rtime := s.ticks } none)

/-- REPLAY_CHECK (R394): a mismatch found within 128 cycles of issue is a strike on the core. -/
def execReplayCheck (core quadrant entry : Nat) (recomputed : List Word) (s : State) :
    Host.Outcome State Fault Refusal :=
  match ((s.core core).replay.filter (·.quadrant == quadrant))[entry]? with
  | none => .next s
  | some r =>
    let s := s.updCore core fun c => { c with replay := c.replay.filter (· != r) }
    if r.result == recomputed then .next s
    else
      let lid := s.launchOf r.wave
      let rec' : ErrRec :=
        { kind := 2, unit := 1, loc := locOfCore core quadrant, pc := r.pc + (if r.slice == .a then 1 else 0)
          eseq := r.eseq }
      let s := s.record (s.launchRec lid rec') (some lid)
      .next (if s.cycle < r.issued + Config.settle then s.strike core else s)

/-! The redundant screen (R395). -/

/-- A screen by its number. -/
def State.screen? (s : State) (id : Nat) : Option Screen := s.maint.screens.find? (·.id == id)

/-- Both executions of a screen have retired. -/
def State.screenDone (s : State) (x : Screen) : Bool :=
  !x.done && (s.block x.primary).phase == .retired && match x.shadow with
    | some b => (s.block b).phase == .retired
    | none => false

/-- SCREEN_COMPARE (R395): unequal signatures write a record of kind 3; the primary's stores stand. -/
def execScreenCompare (screen : Nat) (s : State) : Host.Outcome State Fault Refusal :=
  match s.screen? screen with
  | none => .next s
  | some x =>
    if !s.screenDone x then .next s
    else
      let p := s.block x.primary
      let q := s.block (x.shadow.getD 0)
      let shut := fun (y : Screen) => { y with done := true }
      let s := { s with maint := { s.maint with screens := updAll (·.id == screen) shut s.maint.screens } }
      .next (if p.signature == q.signature then s
        else s.record (s.launchRec p.launch { kind := 3, loc := locOfCore p.core 0 }) (some p.launch))

/-- No room was found for the shadow within 1,000 real ticks (R395). -/
def State.screenLate (s : State) (x : Screen) : Bool :=
  !x.done && x.since + 1000 * Config.unitsPerTick ≤ s.time && match x.shadow with
    | some b => (s.block b).phase == .waiting && !(s.block b).begun
    | none => true

/-- SCREEN_ABANDON (R395). -/
def execScreenAbandon (screen : Nat) (s : State) : Host.Outcome State Fault Refusal :=
  match s.screen? screen with
  | none => .next s
  | some x => .next (if s.screenLate x then s.abandonScreen screen else s)

/-! Error-correcting codes (R396, R400, R401). -/

/-- The sector that an uncorrectable error poisons at its home; none in a stack cache and in an L1, whose lines keep their
own marks, and in the register pool, where the manual gives the mark no effect. DESIGN CHOICE, log entry 77. -/
def eccHome : EccPlace → Option SecKey
  | .device i => some { place := .dev, idx := i }
  | .scratch b i => some { place := .scr b, idx := i }
  | .wbuf b i => some { place := .typed b .w, idx := i }
  | .abuf b i => some { place := .typed b .a, idx := i }
  | .cbuf b i => some { place := .typed b .c, idx := i }
  | .stack .. => none
  | .array unit _ i => if unit == 3 || unit == 8 then none else some { place := .dev, idx := i }

/-- The core that LOC names (R398). -/
def coreOfLoc (loc : Nat) : Nat := 52 * (loc % 4) + 4 * (loc / 4 % 16) + loc / 64 % 4

/-- Unit and LOC of a place that a code reports on (R398). -/
def State.eccSite (s : State) (p : EccPlace) : ErrSite :=
  match p with
  | .stack w _ _ => { unit := 10, loc := locOfCore (s.wave w).core ((s.wave w).slot / 8) }
  | .array unit loc _ => { unit := unit, loc := loc }
  | p => ((eccHome p).map s.unitOf).getD { unit := 0 }

/-- The DRAM device of its die that holds a place (R17, R21, R400); 0 for an array of the die itself. -/
def eccDevice : EccPlace → Nat
  | .device i => if 32 * i < 0x4000000000 then 32 * i / 0x100000000 % 12 else (32 * i - 0x4000000000) / 0x2000000000 % 2
  | _ => 0

/-- An error in an array of a core (units 1 to 10, R398) that HMAP disables is none (R18). -/
def State.eccAbsent (s : State) : EccPlace → Bool
  | .array unit loc _ => 1 ≤ unit && unit ≤ 10 && !s.coreEnabled (coreOfLoc loc)
  | _ => false

/-- The device sector that backs a sector of a stack-cache line. -/
def State.stackSector (s : State) (w word j : Nat) : Option SecKey :=
  let wv := s.wave w
  let l := s.launch (s.launchOf w)
  match s.translate (some wv.core) l.fn l.asid { priv := 2 } (wv.backAt l.packet word) with
  | .ok pa => some { place := .dev, idx := pa / 32 + j }
  | _ => none

/-- Mark a core's copies of a sector, one that its L1 takes for it where a wave resides there; log entry 77. -/
def State.markLine (s : State) (core : Nat) (k : SecKey) : State :=
  let here := fun (c : LineCopy) => c.core == some core && c.key == k
  let s := match s.residents core with
    | w :: _ => if s.lines.any here then s else s.takeLine (s.launchOf w) core true k
    | [] => s
  { s with lines := updAll here (fun c => { c with marked := true }) s.lines }

/-- An uncorrectable error marks its sector (R396), and where it stands is kept for the records of its consumption
(R398). -/
def State.eccMark (s : State) (p : EccPlace) (site : ErrSite) : State :=
  let note := fun (s : State) (k : SecKey) =>
    { s with maint := { s.maint with sites := upsert (·.1 == k) (k, site) (fun _ => (k, site)) s.maint.sites } }
  match p, eccHome p with
  | _, some k => note (s.setPoison k true) k
  | .stack w word j, none =>
    let put := fun (k : StackLine) => { k with marked := addOwner k.marked j }
    let s := s.updWave w fun x => { x with cache := updAll (·.word == word) put x.cache }
    (s.stackSector w word j).elim s (note s)
  | .array unit loc i, none =>
    if unit == 8 then note (s.markLine (coreOfLoc loc) { place := .dev, idx := i }) { place := .dev, idx := i } else s
  | _, none => s

/-- Corrected errors of a bank in the present hour. -/
def State.bankHour (s : State) (unit loc device bank : Nat) : Nat :=
  ((s.maint.banks.filter fun x => x.unit == unit && x.place == loc && x.device == device && x.bank == bank &&
    x.hour == s.ticks / hourTicks).map (·.count)).foldl (· + ·) 0

/-- Write the summaries of counted banks and rows whose hour is over (R401). -/
def State.summarise (s : State) (due : BankCount → Bool) : State :=
  let due := fun (x : BankCount) => due x && 0 < x.count && !x.noted && x.hour < s.ticks / hourTicks
  let s' := (s.maint.banks.filter due).foldl (fun s x => s.record
    { kind := 4, unit := x.unit, loc := x.place, bank := x.bank, col := x.col, row := x.row, rtime := s.ticks
      count := x.count } none) s
  let note := fun (x : BankCount) => { x with noted := true }
  { s' with maint := { s'.maint with banks := updAll due note s'.maint.banks } }

/-- Count a corrected error (R400); more than 1,000 of a bank in one real hour write a record of kind 11, once
(R401). -/
def State.countCorrected (s : State) (unit loc bank row col : Nat) (device : Nat := 0) : State :=
  let h := s.ticks / hourTicks
  let here := fun (x : BankCount) =>
    x.unit == unit && x.place == loc && x.device == device && x.bank == bank && x.row == row
  let s := s.summarise here
  let before := s.bankHour unit loc device bank
  let mk : BankCount := { unit := unit, place := loc, device := device, bank := bank, row := row }
  let add := fun (x : BankCount) => { x with
    col := col, total := min (x.total + 1) (2 ^ 32 - 1), hour := h
    count := (if x.hour == h then x.count else 0) + 1
    noted := if x.hour == h then x.noted else false, lastTick := s.ticks }
  let l := upsert here mk add s.maint.banks
  let s := { s with maint := { s.maint with banks := l } }
  if before == 1000 then
    s.record { kind := 11, unit := unit, loc := loc, bank := bank, row := row, rtime := s.ticks, count := 1001 } none
  else s

/-- ECC_ERROR (R396): corrected and counted, or the sector is marked. -/
def execEccError (place : EccPlace) (bank col : BitVec 16) (row : Word) (corrected : Bool) (s : State) :
    Host.Outcome State Fault Refusal :=
  let x := { s.eccSite place with bank := bank.toNat, col := col.toNat, row := row.toNat }
  .next (if s.eccAbsent place then s
    else if corrected then s.countCorrected x.unit x.loc x.bank x.row x.col (eccDevice place)
    else s.eccMark place x)

/-- CORRECTED_SUMMARY (R398, R401): one record of kind 4 for each bank and row that an hour now over has counted. -/
def execCorrectedSummary (s : State) : Host.Outcome State Fault Refusal := .next (s.summarise fun _ => true)

/-! Trace samples and the lane-cycle record (R403, R404). -/

/-- A sample of a core for a context (R403): the first fragment of the first wave of the context there.
DEDUCED, log entry 48. -/
def State.traceSample (s : State) (fn asid core : Nat) : State :=
  let c := s.context fn asid
  if !c.running || !c.trace.ctl.getLsbD 1 then s
  else match (s.residents core).find? fun w =>
      (s.launch (s.launchOf w)).fn == fn && (s.launch (s.launchOf w)).asid == asid && !(s.wave w).retired with
    | none => s
    | some w =>
      let pc := ((s.wave w).frags.head?.map (·.pc)).getD 0
      s.trace fn asid 2 core (s.wave w).eseq pc 0

/-- TRACE_SAMPLE (R403). -/
def execTraceSample (fn asid core : Nat) (s : State) : Host.Outcome State Fault Refusal :=
  .next (s.traceSample fn asid core)

/-- A FLUSH of the lane-cycle record (R404): 17 bins of six totals, VTIME and real ticks; the bins clear. -/
def State.flushLanes (s : State) (fn asid : Nat) : State :=
  let c := s.context fn asid
  let bins := (List.range 17).flatMap fun i => (List.range 6).flatMap fun j =>
    bytesOfNat 8 ((c.lanes.bins.getD i []).getD j 0)
  let s := s.writeVirt fn asid ((pair c.lanes.baseLo c.lanes.baseHi).toNat + 256)
    (bins ++ bytesOfNat 8 c.vns ++ bytesOfNat 8 s.ticks)
  s.updContext fn asid fun c => { c with lanes := { c.lanes with bins := [] } }

/-- LC_FLUSH (R404). -/
def execLcFlush (fn asid : Nat) (s : State) : Host.Outcome State Fault Refusal := .next (s.flushLanes fn asid)

/-- A write of LCCTL (R404): the ranges are read when EN is set; none where the value is rejected. DEDUCED, log entry 46. -/
def State.writeLcctl (s : State) (fn asid : Nat) (v : Word) : Option State :=
  if 4 ≤ v.toNat then none
  else
    let on := v.getLsbD 0
    let c := s.context fn asid
    let ranges := match s.readVirt fn asid (pair c.lanes.baseLo c.lanes.baseHi).toNat 256 with
      | .ok bs => (List.range 16).map fun i => (le64At bs (16 * i), le64At bs (16 * i + 8))
      | .error _ => []
    let s := s.updContext fn asid fun c => { c with lanes := { c.lanes with
      en := on, ranges := if on && !c.lanes.en then ranges else c.lanes.ranges } }
    some (if v.getLsbD 1 then s.flushLanes fn asid else s)

/-! Self-test (R399). -/

/-- A write of STEST; none where the value is rejected. A write without GO sets CORE alone, also while a test runs. From GO
until the test ends RES reads 0, which R399 leaves open. DESIGN CHOICE, log entry 58. -/
def State.writeStest (s : State) (v : Word) : Option State :=
  let core := v.toNat % 256
  let go := v.getLsbD 8
  if 207 < core || (go && (!s.coreEnabled core || s.maint.stestBusy)) then none
  else if go then some { s with maint := { s.maint with
    stestCore := core, stestRun := core, stestBusy := true, stestRes := 0 } }
  else some { s with maint := { s.maint with stestCore := core } }

/-- SELF_TEST_START (R399): the write of STEST with GO. -/
def execSelfTestStart (core : BitVec 8) (s : State) : Host.Outcome State Fault Refusal :=
  .next (s.orSame (s.writeStest (core.setWidth 32 ||| 0x100)))

/-- SELF_TEST_RUN (R399): once the core is empty its arrays are tested and cleared. DEDUCED, log entry 58. -/
def execSelfTestRun (pass : Bool) (s : State) : Host.Outcome State Fault Refusal :=
  let core := s.maint.stestRun
  if !s.maint.stestBusy || !(s.residents core).isEmpty then .next s
  else
    let s := { s with maint := { s.maint with stestBusy := false, stestRes := if pass then 1 else 2 } }
    let s := s.writeOuts fun c => c.core == some core
    let s := s.updCore core fun c => { c with handles := [], tlb := [], replay := [], history := [], performed := [] }
    .next (if pass then s
      else (s.exclude core).record { kind := 9, loc := locOfCore core 0, rtime := s.ticks } none)

/-- STEST as it reads. -/
def Maint.stest (m : Maint) : Word :=
  BitVec.ofNat 32 (m.stestCore + (if m.stestBusy then 0x200 else 0) + 0x400 * m.stestRes)

/-! The dump engine (R405). -/

/-- A dump descriptor. -/
structure Dump where
  dst : Nat
  dlen : Nat
  fn : Nat
  all : Bool
  asidx : Nat
  srcs : Nat
  bad : Bool

def Dump.of (bs : List Byte) : Dump :=
  let vf := leAt bs 12 1
  { dst := leAt bs 0 8, dlen := leAt bs 8 4, fn := if vf / 128 == 1 then Config.physFn else vf % 128
    all := leAt bs 13 1 % 2 == 1, asidx := leAt bs 14 2, srcs := leAt bs 16 8
    bad := leAt bs 0 8 % 4096 != 0 || leAt bs 8 4 % 4096 != 0 || 2 ≤ leAt bs 13 1 || 256 ≤ leAt bs 16 8 ||
      (bs.drop 24).any (· != 0) || (vf < 128 && 95 < vf) }

/-- DMPST: state, error code, chunks written. -/
def dumpStatus (st code chunks : Nat) : Word := BitVec.ofNat 32 (st + 16 * code + 256 * chunks)

/-- A core-local source is asked of a context that is not stopped (R405). -/
def State.dumpRunning (s : State) (d : Dump) : Bool :=
  Nat.land d.srcs 0x2F != 0 && s.contexts.any fun c =>
    c.fn == d.fn && c.running && (d.all || s.asidOf d.fn d.asidx == some c.asid)

/-- A run of bytes that a dump finds in one array: the source, LOC, the context, the wave whose issue site goes with it. -/
structure DumpItem where
  src : Nat
  loc : Nat := 0
  ctx : Option (Nat × Nat) := none
  wave : Option Nat := none
  bytes : List Byte

/-- The descriptor asks for entries of a context (R405). -/
def State.dumpTag (s : State) (d : Dump) (fn asid : Nat) : Bool :=
  d.fn == fn && (d.all || s.asidOf fn d.asidx == some asid)

/-- The records of the lifetime log that stand in the ring of the module flash (R400). -/
def Maint.ring (m : Maint) : List ErrRec := m.log.drop (m.log.length - Config.logRecords)

/-- The tables of the lifetime log beside its records (R400), every counter at the place of what it counts: strikes by core
and band, the bank map, lanes by number. DESIGN CHOICE, log entry 26: an entry of the bank map puts unit, die and device into
its first two bytes. R348 has lifetime counters carry VTIME beside real time, and R400's entries hold none: the tables name
no context, and their chunks carry VTIME 0. -/
def Maint.tables (m : Maint) : List Byte :=
  ((List.range Config.cores).flatMap fun c => (List.range 8).flatMap fun b =>
    bytesOfNat 4 (((m.strikes.find? fun x => x.1 == c && x.2.1 == b).map (·.2.2)).getD 0)) ++
  (m.banks.flatMap fun b => bytesOfNat 2 (b.unit + 32 * (b.place % 4) + 128 * b.device) ++ bytesOfNat 2 b.bank ++
    bytesOfNat 4 b.row ++ bytesOfNat 4 b.total ++ bytesOfNat 4 b.lastTick) ++
  (List.range 160).flatMap fun l => bytesOfNat 8 (((m.fec.find? fun x => x.lane == l).map (·.total)).getD 0)

/-- What the arrays of a source hold with the descriptor's tags; of a saved block what its record holds (R338). The error records are filtered as the arrays are; the
tables of the lifetime log carry no tag and come whole. DESIGN CHOICE, log entry 26. -/
def State.dumpItems (s : State) (d : Dump) (src : Nat) : List DumpItem :=
  let mine := (List.range s.blocks.length).filter fun b =>
    let l := s.launch (s.block b).launch
    ((s.block b).phase == .resident || (s.block b).phase == .saved) && s.dumpTag d l.fn l.asid
  let tag := fun (b : Nat) => some ((s.launch (s.block b).launch).fn, (s.launch (s.block b).launch).asid)
  let ofBlock := fun (b : Nat) (p : Place) (n : Nat) =>
    ({ src := src, loc := locOfCore (s.block b).core 0, ctx := tag b, wave := (s.block b).waves.head?
       bytes := (List.range n).map fun k => s.readPlace p k } : DumpItem)
  let ofWave := fun (b w : Nat) (bs : List Byte) =>
    ({ src := src, loc := locOfCore (s.wave w).core ((s.wave w).slot / 8), ctx := tag b, wave := some w, bytes := bs } : DumpItem)
  let records := (s.maint.ring.filter fun r => r.ctx == fnField d.fn && (d.all || s.asidOf d.fn d.asidx == some r.asid)).map
    fun r => ({ src := src, loc := r.loc, bytes := r.bytes } : DumpItem)
  match src with
  | 0 => mine.flatMap fun b => ((s.block b).waves.filter fun w => !(s.wave w).retired).map fun w =>
      ofWave b w ((s.wave w).recordBytes fun i => Config.deviceByte 6 [] (s.cycle * 2 ^ 40 + w * 2 ^ 24 + i))
  | 1 => mine.map fun b => ofBlock b (.scr b) (s.block b).scrSize
  | 2 => mine.flatMap fun b => [Buf.w, .a, .c].map fun u => ofBlock b (.typed b u) ((s.block b).typedSize u)
  | 3 => (s.lines.filter fun c => c.core.isSome && (c.launch.map fun l =>
      s.dumpTag d (s.launch l).fn (s.launch l).asid).getD (mine.any fun b => (s.block b).phase == .resident && some (s.block b).core == c.core)).map fun c =>
      { src := src, loc := locOfCore (c.core.getD 0) 0, bytes := c.bytes }
  | 4 => (Config.l2Sectors s.cycle d.fn (if d.all then none else s.asidOf d.fn d.asidx)).map fun k =>
      { src := src, loc := dieOfPa (32 * k), bytes := s.readBytes .dev (32 * k) 32 }
  | 5 => mine.flatMap fun b => (s.block b).waves.flatMap fun w => (s.wave w).cache.map fun k => ofWave b w k.bytes
  | 6 => records
  | _ => records ++ [{ src := src, bytes := s.maint.tables }]

/-- The issue site of a wave (R402): VF, ASID, queue, block, wave, stream, PC and ESEQ, those of its first live
fragment. -/
def State.siteBytes (s : State) (w : Nat) : List Byte :=
  let wv := s.wave w
  let k := s.block wv.block
  let l := s.launch k.launch
  let sl : Slice := if (wv.stream .a).live.isEmpty then .c else .a
  let pc := ((wv.stream sl).live.head?.map (·.2.pc)).getD 0
  bytesOfNat 1 (fnField l.fn) ++ bytesOfNat 2 l.asid ++ bytesOfNat 2 l.queue ++ bytesOfNat 4 k.index ++ bytesOfNat 2 wv.idx ++
    bytesOfNat 2 (if sl == .a then 1 else 0) ++ bytesOfNat 8 pc.toNat ++ bytesOfNat 4 wv.eseq.toNat

/-- The clear header of a chunk (R405): LOC, the source, the issue site of the owning wave, VTIME, real ticks and the IV.
Its layout is the model's. DESIGN CHOICE, log entry 26. -/
def State.dumpHeader (s : State) (x : DumpItem) (iv : Nat) : List Byte :=
  let vt := (x.ctx.map fun c => (s.context c.1 c.2).vns).getD 0
  bytesOfNat 2 x.loc ++ bytesOfNat 1 x.src ++ (x.wave.map s.siteBytes).getD (List.replicate 25 0) ++ bytesOfNat 8 vt ++
    bytesOfNat 8 s.ticks ++ bytesOfNat 12 iv ++ List.replicate 8 0

/-- A byte list cut into pieces of `n`, at most `fuel` of them, the last filled with zeros. -/
def pieces (n : Nat) : Nat → List Byte → List (List Byte)
  | 0, _ => []
  | fuel + 1, bs => if bs.isEmpty then [] else (bs.take n ++ List.replicate (n - (bs.take n).length) 0) :: pieces n fuel (bs.drop n)

/-- The chunks of a dump (R405): header, 4,016 bytes of ciphertext under the tenant's key, and the tag. What the cipher gives
is free (log entry 13). -/
def State.dumpChunks (s : State) (d : Dump) (key : BitVec 256) : List (List Byte) :=
  let items := ((List.range 8).filter fun k => d.srcs.testBit k).flatMap (s.dumpItems d)
  let parts := items.flatMap fun x => (pieces 4016 (x.bytes.length / 4016 + 1) x.bytes).map (x, ·)
  parts.mapIdx fun i p =>
    let iv := Config.dumpIv s.cycle i
    s.dumpHeader p.1 iv ++ (List.range 4032).map (Config.sealed key iv p.2)

/-- The dump that DMPD asks for: it ends done, or in an error (R405). -/
def State.dump (s : State) : State :=
  let m := s.maint
  let fin := fun (s : State) (st code chunks : Nat) =>
    { s with maint := { s.maint with dmpst := dumpStatus st code chunks } }
  match s.readVirt m.dmpFn m.dmpAsid (pair m.dmpdLo m.dmpdHi).toNat 64 with
  | .error _ => fin s 3 3 0
  | .ok bs =>
    let d := Dump.of bs
    match (s.function d.fn).dumpKey with
    | none => if d.bad then fin s 3 3 0 else fin s 3 4 0
    | some key =>
      if d.bad then fin s 3 3 0
      else if s.dumpRunning d then fin s 3 1 0
      else
        let cs := s.dumpChunks d key
        let n := min cs.length (d.dlen / 4096)
        let s' := s.writeVirt m.dmpFn m.dmpAsid d.dst ((cs.take n).flatMap id)
        if n < cs.length then fin s' 3 2 n else fin s' 2 0 n

/-- DUMP_START (R405): the dump engine runs on the descriptor that a write of DMPD has given it. -/
def execDumpStart (s : State) : Host.Outcome State Fault Refusal :=
  .next (if s.maint.dmpst.toNat % 4 == 1 then s.dump else s)

/-- A write of DMPD's high word starts the engine (R405); none while it runs. -/
def State.startDump (s : State) (fn asid : Nat) (hi : Word) : Option State :=
  if s.maint.dmpst.toNat % 4 == 1 then none
  else some { s with maint := { s.maint with dmpdHi := hi, dmpst := 1, dmpFn := fn, dmpAsid := asid } }

end Sys2Proof.Machine
end

