-- ==== Sys2Proof/Machine/Trust.lean ====
section
/-!
DEFINITION. Boot, recovery, measurement, the report mailbox, tenant keys and the limits of the module (R406 to
R414). Cryptographic values are free.
-/

namespace Sys2Proof.Machine

/-! Reset and boot (R406, R407, R409, R414). -/

/-- Module reset: the state of State.reset, with what lies outside it: flash and fuses, the host's memory, and
whatever the surroundings still have in store. DEDUCED, log entry 59. -/
def State.resetModule (s : State) (boot : Boot) : State :=
  let r := State.reset
  let t := s.trust
  { r with
    agenda := s.agenda
    memories := { r.memories with host := s.memories.host }
    maint := { r.maint with log := s.maint.log, strikes := s.maint.strikes, banks := s.maint.banks, fec := s.maint.fec }
    trust := { r.trust with
      boot := boot, svFuse := t.svFuse, keyFuses := t.keyFuses, fusesOk := t.fusesOk, image := t.image
      bootCount := t.bootCount } }

/-- Why the image in flash is not accepted: the reason of RSTAT (R407, R408). DEDUCED, log entry 59. -/
def Trust.refusal (t : Trust) : Option Nat :=
  if !t.image.readable then some 5
  else if t.image.keys != t.keyHashes then some 1
  else if !t.image.signatures then some 2
  else if t.image.sv < t.svmin then some 3
  else if !t.image.model then some 4
  else none

/-- The harvest maps of a module with every core enabled; DESIGN CHOICE, log entry 5. -/
def fullMaps : List Word := (List.range 4).flatMap fun _ => [0xFFFFFFFF, 0x000FFFFF]

/-- The fuse configuration, which MR3 is extended with beside the harvest maps (R409). -/
def Trust.fuseBytes (t : Trust) : List Byte := bytesOfNat 4 t.svFuse ++ t.keyFuses.flatMap fun h => bytesOfNat 48 h.toNat

/-- Bytes that the device produces. -/
def freeBytes (what : Nat) (on : List Byte) (n : Nat) : List Byte := (List.range n).map (Config.deviceByte what on)

/-- The six stages of boot (R406). Where the fuses do not pass their check no later stage starts. -/
def State.boot (s : State) : State :=
  -- stage 1: the fuses
  let s := { s with trust := { s.trust with bootCount := s.trust.bootCount + 1 } }
  if !s.trust.fusesOk then { s with trust := { s.trust with boot := .halted } } else
  let s := { s with trust := { s.trust with svmin := s.trust.svFuse, keyHashes := s.trust.keyFuses } }
  -- stage 2: the image
  match s.trust.refusal with
  | some r => { s with trust := { s.trust with boot := .recovery r } }
  | none =>
    -- stages 3 and 4: measurements
    let s := s.extendMr 0 (freeBytes 0 [] 48)
    let s := s.extendMr 1 (digestOf (s.trust.image.bytes ++ bytesOfNat 4 s.trust.image.sv))
    let s := s.extendMr 2 (freeBytes 1 s.trust.image.bytes 48)
    -- stage 5: the configuration
    let seed : Word := BitVec.ofNat 32 ((Config.screenSeed s.trust.bootCount).val + 1)
    let s := { s with mregs := { s.mregs with hmap := fullMaps }, maint := { s.maint with scrseed := seed, lfsr := seed } }
    let s := s.extendMr 3 (digestOf (s.trust.fuseBytes ++ fullMaps.flatMap bytesOfWord))
    -- stage 6: the links, with fresh keys
    let fresh := fun (p : Port) => { p with sendEpoch := p.sendEpoch + 1, recvEpoch := p.recvEpoch + 1 }
    { s with ports := s.ports.map fresh, trust := { s.trust with boot := .booted } }

/-- MODULE_RESET (R406): reset, then boot from stage 1. -/
def execModuleReset (s : State) : Host.Outcome State Fault Refusal := .next ((s.resetModule .reset).boot)

/-- THERMAL_TRIP (R414): every clock stops and the module holds in reset. -/
def execThermalTrip (s : State) : Host.Outcome State Fault Refusal := .next (s.resetModule .tripped)

/-- THROTTLE (R414): the arithmetic clock steps one state. -/
def execThrottle (down : Bool) (s : State) : Host.Outcome State Fault Refusal :=
  .next { s with clock := if down then min 3 (s.clock + 1) else s.clock - 1 }

/-- The policy core loads a firmware module after boot, and MR4 is extended with its digest (R409). -/
def State.loadFirmware (s : State) (digest : BitVec 384) : State :=
  if s.trust.boot == .booted then s.extendMr 4 (bytesOfNat 48 digest.toNat) else s

/-- SVMIN_RAISE (R413): never lowered, and only by a signed request, which a module in recovery does not take (R407). -/
def execSvminRaise (version : Nat) (signed : Bool) (s : State) : Host.Outcome State Fault Refusal :=
  .next (if signed && !s.inRecovery then { s with trust := { s.trust with
    svFuse := max version s.trust.svFuse, svmin := max version s.trust.svmin } } else s)

/-! Recovery (R408). -/

/-- RLEN is in range. -/
def Trust.lenOk (t : Trust) : Bool := t.rlen.toNat % 4096 == 0 && 4096 ≤ t.rlen.toNat && t.rlen.toNat ≤ 2 ^ 25

/-- RECOVERY_PROGRAM: command 1 of RCMD, which takes the address and the length as they stand (R408). DEDUCED, log entry
59. -/
def State.recoveryProgram (s : State) : State :=
  if !s.inRecovery then s
  else if s.trust.rbusy then { s with trust := { s.trust with rresult := 4 } }
  else if !s.trust.lenOk then { s with trust := { s.trust with rresult := 1 } }
  else { s with trust := { s.trust with rbusy := true, rsource := s.trust.raddr, rcount := s.trust.rlen } }

/-- RECOVERY_PROGRAM (R408). -/
def execRecoveryProgram (s : State) : Host.Outcome State Fault Refusal := .next s.recoveryProgram

/-- An image as the boot ROM will find it. -/
def imageOf (bs : List Byte) : Image :=
  { bytes := bs, keys := [Config.imageKey bs 0, Config.imageKey bs 1], signatures := Config.imageCheck bs 1
    sv := Config.imageVersion bs, model := Config.imageCheck bs 2, readable := Config.imageCheck bs 3 }

/-- RECOVERY_PROGRAM_DONE (R408): the command has ended with a result: 0 success, 2 a read fault, 3 a flash
error; no other ends it. A reset that waited for it takes place. -/
def execRecoveryProgramDone (result : BitVec 4) (s : State) : Host.Outcome State Fault Refusal :=
  if !s.inRecovery || !s.trust.rbusy || !(result == 0#4 || result == 2#4 || result == 3#4) then .next s
  else
    let bs := s.memories.host.reads s.trust.rsource.toNat s.trust.rcount.toNat
    let s := { s with trust := { s.trust with
      rbusy := false, rresult := result.toNat, image := if result == 0#4 then imageOf bs else s.trust.image } }
    .next (if s.trust.rreset then (s.resetModule .reset).boot else s)

/-- Command 2 of RCMD: a reset, which waits while BUSY is set. -/
def State.recoveryReset (s : State) : State :=
  if !s.inRecovery then s
  else if s.trust.rbusy then { s with trust := { s.trust with rreset := true } }
  else (s.resetModule .reset).boot

/-- RECOVERY_RESET (R408). -/
def execRecoveryReset (s : State) : Host.Outcome State Fault Refusal := .next s.recoveryReset

/-- A write to the recovery mailbox (R408). -/
def State.writeRecovery (s : State) (off : Nat) (v : Dword) : State :=
  match off with
  | 0x008 => { s with trust := { s.trust with raddr := v &&& 0xFFFFFFFFFFFFF000 } }
  | 0x010 => { s with trust := { s.trust with rlen := v.setWidth 32 } }
  | 0x014 => if v == 1 then s.recoveryProgram else if v == 2 then s.recoveryReset else s
  | _ => s

/-! The report mailbox (R410). -/

/-- Act on a mailbox that is there. -/
def State.mailbox (s : State) (fn : Nat) (f : State → State) : State := if s.presents fn then f s else s

/-- The SPDM error response. -/
def spdmError : List Byte := spdm 0x7F []

/-- GET_VERSION (R410): version 1.2. -/
def execGetVersion (fn : Nat) (s : State) : Host.Outcome State Fault Refusal :=
  .next (s.mailbox fn fun s => s.respond fn (spdm 0x04 [0x00, 0x12]))
/-- GET_CAPABILITIES (R410). -/
def execGetCapabilities (fn : Nat) (s : State) : Host.Outcome State Fault Refusal :=
  .next (s.mailbox fn fun s => s.respond fn (spdm 0x61 (freeBytes 10 [] 8)))
/-- The algorithms that R410 fixes, as SPDM 1.2 encodes a selection: measurement hash SHA-384, signature ECDSA P-384, hash
SHA-384, then DHE secp384r1 and AEAD AES-256-GCM. PRESUMED, log entry 15. -/
def algorithms : List Byte :=
  [1, 0] ++ bytesOfNat 4 0x4 ++ bytesOfNat 4 0x80 ++ bytesOfNat 4 0x2 ++ [2, 0x20] ++ bytesOfNat 2 0x10 ++ [3, 0x20] ++ bytesOfNat 2 0x2

/-- NEGOTIATE_ALGORITHMS (R410): ECDSA P-384, SHA-384, secp384r1, AES-256-GCM. -/
def execNegotiateAlgorithms (fn : Nat) (s : State) : Host.Outcome State Fault Refusal :=
  .next (s.mailbox fn fun s =>
    ({ s with trust := { s.trust with negotiated := addOwner s.trust.negotiated fn } }).respond fn
      (spdm 0x63 algorithms))
/-- GET_DIGESTS (R410): slot 0 alone. -/
def execGetDigests (fn : Nat) (s : State) : Host.Outcome State Fault Refusal :=
  .next (s.mailbox fn fun s => s.respond fn (spdm 0x01 (1 :: digestOf (freeBytes 12 [] 1024))))
/-- GET_CERTIFICATE (R410): slot 0 alone. -/
def execGetCertificate (fn slot : Nat) (s : State) : Host.Outcome State Fault Refusal :=
  .next (s.mailbox fn fun s => s.respond fn (if slot == 0 then spdm 0x02 (freeBytes 12 [] 1024) else spdmError))

/-- GET_MEASUREMENTS (R410): index i is MR(i−1); the signature covers the nonce and every register. -/
def execGetMeasurements (fn index : Nat) (nonce : BitVec 256) (s : State) : Host.Outcome State Fault Refusal :=
  .next (s.mailbox fn fun s =>
    if index == 0 || 8 < index then s.respond fn spdmError
    else
      let all := s.trust.mrs.flatMap fun m => bytesOfNat 48 m.toNat
      let v := bytesOfNat 48 (s.trust.mrs.getD (index - 1) 0).toNat
      s.respond fn (spdm 0x60 (v ++ freeBytes 13 (bytesOfNat 32 nonce.toNat ++ all) 96)))

/-- KEY_EXCHANGE (R410): a handshake begins once the algorithms are negotiated. -/
def execKeyExchange (fn : Nat) (s : State) : Host.Outcome State Fault Refusal :=
  .next (s.mailbox fn fun s =>
    if !s.trust.negotiated.contains fn then s.respond fn spdmError
    else ({ s with trust := { s.trust with handshakes := addOwner s.trust.handshakes fn } }).respond fn
      (spdm 0x64 (freeBytes 14 [] 192)))

/-- FINISH (R410): the handshake ends in an open session. -/
def execFinish (fn : Nat) (s : State) : Host.Outcome State Fault Refusal :=
  .next (s.mailbox fn fun s =>
    if !s.trust.handshakes.contains fn then s.respond fn spdmError
    else ({ s with trust := { s.trust with
        handshakes := s.trust.handshakes.filter (· != fn), sessions := addOwner s.trust.sessions fn } }).respond fn
      (spdm 0x65 []))

/-- END_SESSION (R410). A request that the policy core has in hand for the session goes with it, without effect, so that
none of a later session finds it busy (R411). DESIGN CHOICE, log entry 15. -/
def execEndSession (fn : Nat) (s : State) : Host.Outcome State Fault Refusal :=
  .next (s.mailbox fn fun s =>
    if !s.trust.sessions.contains fn then s.respond fn spdmError
    else ({ s with trust := { s.trust with
        sessions := s.trust.sessions.filter (· != fn), slow := s.trust.slow.filter (· != fn)
        unfinished := s.trust.unfinished.filter (·.1 != fn) } }).respond fn (spdm 0x6C []))

/-! Vendor-defined requests (R411, R412). -/

/-- The status of a vendor-defined request: 1 outside a session or not allowed, 2 an argument, 3 a teardown, 4 busy. The
order in which they are found is the table's. DEDUCED, log entry 15. -/
def vendorStatus (session allowed argOk teardown busy : Bool) : Nat :=
  if !session || !allowed then 1 else if !argOk then 2 else if teardown then 3 else if busy then 4 else 0

/-- Payload bytes 1 to 3: ARG, and the zeros. -/
def payloadArg (bs : List Byte) : Nat := leAt bs 1 1
def payloadClean (bs : List Byte) : Bool := leAt bs 2 2 == 0

/-- What a vendor-defined request does: 1 extends MR6 or MR7 (R409), 2 installs the VF's dump key and 3 clears it (R412). -/
def State.vendorEffect (s : State) (fn cmd : Nat) (payload : List Byte) : State :=
  match cmd with
  | 1 => s.extendMr (payloadArg payload) (payload.drop 4)
  | 2 => s.updFunction fn fun f => { f with dumpKey := some (BitVec.ofNat 256 (leAt payload 4 32)) }
  | _ => s.updFunction fn fun f => { f with dumpKey := none }

/-- The policy core is completing an earlier request of the function's session (R411). -/
def State.vendorBusy (s : State) (fn : Nat) : Bool := s.trust.unfinished.any (·.1 == fn)

/-- Answer a vendor-defined request. It takes effect with status 0, at once or, where the policy core takes a while over
it, when that completes. DESIGN CHOICE, log entry 15. -/
def State.vendor (s : State) (fn cmd status : Nat) (payload : List Byte) : State :=
  if status != 0 then s.respond fn (vendorResponse cmd status)
  else if s.trust.slow.contains fn then
    { s with trust := { s.trust with
      slow := s.trust.slow.filter (· != fn), unfinished := s.trust.unfinished ++ [(fn, cmd, payload)] } }
  else (s.vendorEffect fn cmd payload).respond fn (vendorResponse cmd 0)

/-- The policy core completes the request that it has in hand for a session. An install for a VF that is being torn down
has been refused when the teardown began (R414). -/
def State.vendorFinish (s : State) (fn : Nat) : State :=
  match s.trust.unfinished.find? (·.1 == fn) with
  | none => s
  | some (_, cmd, payload) =>
    let s := { s with trust := { s.trust with unfinished := s.trust.unfinished.filter (·.1 != fn) } }
    if cmd != 1 && (s.function fn).tear.isSome then s.respond fn (vendorResponse cmd 3)
    else (s.vendorEffect fn cmd payload).respond fn (vendorResponse cmd 0)

/-- EXTEND (R409, R411): MR6 or MR7, through the physical function's mailbox. -/
def execExtend (fn : Nat) (payload : List Byte) (s : State) : Host.Outcome State Fault Refusal :=
  .next (s.mailbox fn fun s =>
    let a := payloadArg payload
    let st := vendorStatus (s.trust.sessions.contains fn) (!isVf fn)
      ((a == 6 || a == 7) && payloadClean payload && payload.length == 52 && leAt payload 0 1 == 1) false (s.vendorBusy fn)
    s.vendor fn 1 st payload)

/-- The mailbox's own VF is named. -/
def ownVf (fn : Nat) (payload : List Byte) : Bool := isVf fn && payloadArg payload % 128 == fn

/-- INSTALL_DUMP_KEY (R411, R412): the key replaces the VF's old one; refused in a teardown (R414). -/
def execInstallDumpKey (fn : Nat) (payload : List Byte) (s : State) : Host.Outcome State Fault Refusal :=
  .next (s.mailbox fn fun s =>
    let st := vendorStatus (s.trust.sessions.contains fn) (ownVf fn payload)
      (payloadArg payload < 128 && payloadClean payload && payload.length == 36 && leAt payload 0 1 == 2)
      (s.function fn).tear.isSome (s.vendorBusy fn)
    s.vendor fn 2 st payload)

/-- CLEAR_DUMP_KEY (R411, R412). -/
def execClearDumpKey (fn : Nat) (payload : List Byte) (s : State) : Host.Outcome State Fault Refusal :=
  .next (s.mailbox fn fun s =>
    let st := vendorStatus (s.trust.sessions.contains fn) (ownVf fn payload)
      (payloadArg payload < 128 && payloadClean payload && payload.length == 4 && leAt payload 0 1 == 3)
      (s.function fn).tear.isSome (s.vendorBusy fn)
    s.vendor fn 3 st payload)

end Sys2Proof.Machine
end

