-- ==== Sys2Proof/Machine/Registers.lean ====
section
/-!
DEFINITION. The special registers: what SYSR reads and SYSW writes, and at which privilege (R317, R399), the
forced invalidation of a handle (R318), and the registers of the function pages (R370).
-/

namespace Sys2Proof.Machine

/-- The privileges at which a register is read and written; none for no access, and none at all for a number
that is not assigned (R317, R399). -/
def sysAccess (n : Nat) : Option (Option Nat × Option Nat) :=
  if n == 0x000 then some (some 0, some 0)
  else if n ≤ 0x004 || (0x010 ≤ n && n ≤ 0x013) || (0x040 ≤ n && n ≤ 0x047) || (0x080 ≤ n && n ≤ 0x14F) then
    some (some 0, none)
  else if n == 0x180 || (0x190 ≤ n && n ≤ 0x196) || n == 0x1A0 || n == 0x1A1 || (0x1C0 ≤ n && n ≤ 0x1DF) ||
      (0x1E0 ≤ n && n ≤ 0x1E2) then some (some 1, some 1)
  else if (0x200 ≤ n && n ≤ 0x208) || (0x310 ≤ n && n ≤ 0x312) || n == 0x320 || n == 0x321 then
    some (some 2, some 2)
  else if n == 0x300 then some (none, some 2)
  else if (0x314 ≤ n && n ≤ 0x31B) || n == 0x322 then some (some 2, none)
  else none

def sysReadPriv (n : Nat) : Option Nat := (sysAccess n).bind (·.1)
def sysWritePriv (n : Nat) : Option Nat := (sysAccess n).bind (·.2)

/-! Reading. -/

/-- TSTATn (R317). -/
def Timer.status (t : Timer) : Word :=
  BitVec.ofNat 32 ((if t.armed then 1 else 0) + (if t.fired then 2 else 0) + (if t.te then 4 else 0))

/-- LPTn of a function (R364). -/
def State.lpt (s : State) (fn n : Nat) : Word :=
  match (s.logicalCores fn)[n]? with
  | some k => BitVec.ofNat 32 (k + 256)
  | none => 0

/-- EXCLd, low or high word (R399). -/
def State.excl (s : State) (i : Nat) : Word :=
  let base := 52 * (i / 2) + 32 * (i % 2)
  let n := if i % 2 == 0 then 32 else 20
  BitVec.ofNat 32 ((List.range n).foldl (fun a k => a + if s.maint.excluded.contains (base + k) then 2 ^ k else 0) 0)

/-- A register of a context or of the module as it reads (R317, R399). -/
def State.readSys (s : State) (fn asid n : Nat) : Word :=
  let c := s.context fn asid
  if n == 0x004 then BitVec.ofNat 32 (fnField fn + 256 * asid)
  else if 0x010 ≤ n && n ≤ 0x013 then (c.timers.getD (n - 0x010) {}).status
  else if 0x040 ≤ n && n ≤ 0x047 then s.mregs.hmap.getD (n - 0x040) 0
  else if 0x080 ≤ n && n ≤ 0x14F then s.lpt fn (n - 0x080)
  else if 0x1C0 ≤ n && n ≤ 0x1DF then c.cevt.getD (n - 0x1C0) 0
  else if 0x201 ≤ n && n ≤ 0x208 then (s.function s.mregs.vfsel.toNat).vfReg n
  else if 0x314 ≤ n && n ≤ 0x31B then s.excl (n - 0x314)
  else match n with
  | 0x180 => c.claims
  | 0x190 => c.trace.ctl
  | 0x191 => c.trace.baseLo
  | 0x192 => c.trace.baseHi
  | 0x193 => c.trace.watch0Lo
  | 0x194 => c.trace.watch0Hi
  | 0x195 => c.trace.watch1Lo
  | 0x196 => c.trace.watch1Hi
  | 0x1A0 => c.tvecLo
  | 0x1A1 => c.tvecHi
  | 0x1E0 => if c.lanes.en then 1 else 0
  | 0x1E1 => c.lanes.baseLo
  | 0x1E2 => c.lanes.baseHi
  | 0x200 => s.mregs.vfsel
  | 0x310 => s.maint.scrctl
  | 0x311 => s.maint.scrseed
  | 0x312 => s.maint.stest
  | 0x320 => s.maint.dmpdLo
  | 0x321 => s.maint.dmpdHi
  | 0x322 => s.maint.dmpst
  | _ => 0

/-- A register as the issuing stream reads it. -/
def Ctx.readSys (c : Ctx) (n : Nat) : Word :=
  match n with
  | 0x000 => BitVec.ofNat 32 c.w.slip
  | 0x001 => BitVec.ofNat 32 c.st.fp
  | 0x002 => BitVec.ofNat 32 c.w.slim
  | 0x003 => c.w.eseq
  | n => c.s.readSys c.fn c.asid n

/-! Writing. -/

/-- HINV (R318): the generation of a current handle advances, the copies and fills that use it stop at their
next sector, and the entry is freed when its users drain; none where the value is rejected. -/
def State.writeHinv (s : State) (v : Word) : Option State :=
  let h := v.toNat % 65536
  let core := v.toNat / 65536 % 256
  if 207 < core then none
  else
    let e := (s.core core).handle (hIdx h)
    if !e.current h then some s
    else
      let e' := if e.users == 0 then e.free else { e with gen := nextGen e.gen, deferred := true }
      let s := s.updHandle core (hIdx h) fun _ => e'
      let mark := fun (c : Copy) =>
        if c.src.handle == some h || c.dst.handle == some h then { c with stale := some h } else c
      let s := s.updCore core fun k => { k with copies := k.copies.map mark }
      let fill := fun (x : XCtx) => if x.user == some (core, h) then { x with stale := some h } else x
      some { s with engines := s.engines.map fill }

/-- HINV (R318). -/
def execHinv (value : Word) (s : State) : Host.Outcome State Fault Refusal := .next (s.orSame (s.writeHinv value))

/-- Change the trace registers of a context. -/
def State.setTrace (s : State) (fn asid : Nat) (f : Trace → Trace) : Option State :=
  some (s.updContext fn asid fun c => { c with trace := f c.trace })

/-- TRCTL rejects a watch unit enabled for no kind of access, and a ring above its size (R403). -/
def trctlOk (v : Word) : Bool :=
  let n := v.toNat
  !(v.getLsbD 6 && n / 256 % 4 == 0) && !(v.getLsbD 7 && n / 1024 % 4 == 0) && n / 4096 % 16 ≤ 8

/-- TVEC's high word, which makes the handler entry effective (R332). -/
def State.writeTvec (s : State) (fn asid : Nat) (hi : Word) : Option State :=
  let t := (pair (s.context fn asid).tvecPend hi).toNat
  if t % 4 != 0 || Config.addressTop ≤ t then none
  else some (s.updContext fn asid fun c => { c with tvecLo := c.tvecPend, tvecHi := hi })

/-- A write of CEVTn: by a holder of the bank (R375, R402). -/
def State.writeCevt (s : State) (fn asid priv n : Nat) (v : Word) : Option State :=
  let c := s.context fn asid
  let k := n / 8
  let held := claimBit c.claims 1 k
  let ok := if 2 ≤ priv then held || claimBit c.claims 4 k else held && !claimBit c.claims 3 k
  if !ok || 256 ≤ v.toNat then none else some (s.updContext fn asid fun c => { c with cevt := c.cevt.set n v })

/-- A write of a register of a context or of the module; none where the value is rejected (R317). DEDUCED, log entry 41. -/
def State.writeSys (s : State) (fn asid priv n : Nat) (v : Word) : Option State :=
  let lanes := fun (f : LaneCycles → LaneCycles) => some (s.updContext fn asid fun c => { c with lanes := f c.lanes })
  let maint := fun (f : Maint → Maint) => some { s with maint := f s.maint }
  if 0x1C0 ≤ n && n ≤ 0x1DF then s.writeCevt fn asid priv (n - 0x1C0) v
  else if 0x201 ≤ n && n ≤ 0x208 then s.writeVf s.mregs.vfsel.toNat n v
  else match n with
  | 0x180 => some (s.writeClaim fn asid v (2 ≤ priv))
  | 0x190 => if trctlOk v then s.setTrace fn asid fun t => { t with ctl := v &&& 0xFFFF } else none
  | 0x191 => if v.toNat % 4096 == 0 then s.setTrace fn asid fun t => { t with baseLo := v } else none
  | 0x192 => s.setTrace fn asid fun t => { t with baseHi := v }
  | 0x193 => if v.toNat % 32 == 0 then s.setTrace fn asid fun t => { t with watch0Lo := v } else none
  | 0x194 => s.setTrace fn asid fun t => { t with watch0Hi := v }
  | 0x195 => if v.toNat % 32 == 0 then s.setTrace fn asid fun t => { t with watch1Lo := v } else none
  | 0x196 => s.setTrace fn asid fun t => { t with watch1Hi := v }
  | 0x1A0 => some (s.updContext fn asid fun c => { c with tvecPend := v })
  | 0x1A1 => s.writeTvec fn asid v
  | 0x1E0 => s.writeLcctl fn asid v
  | 0x1E1 => if v.toNat % 256 == 0 then lanes fun l => { l with baseLo := v } else none
  | 0x1E2 => lanes fun l => { l with baseHi := v }
  | 0x200 => s.writeVfsel v
  | 0x300 => s.writeHinv v
  | 0x310 =>
    let k := v.toNat % 2 ^ 17
    if k < 16 || 65536 < k then none else maint fun m => { m with scrctl := v &&& 0x3FFFF }
  | 0x311 => if v == 0 then none else maint fun m => { m with scrseed := v, lfsr := v }
  | 0x312 => s.writeStest v
  | 0x320 => maint fun m => { m with dmpdLo := v }
  | 0x321 => s.startDump fn asid v
  | _ => some s

/-- A SYSW as it performs for the issuing stream: SLIP is the wave's (R47); none where the value is
rejected. -/
def Ctx.writeSys (c : Ctx) (n : Nat) (v : Word) : Option Ctx :=
  if n == 0 then
    (if v.toNat == 0 || 16 < v.toNat then none else some { c with w := { c.w with slip := v.toNat } })
  else (c.out.writeSys c.fn c.asid c.priv n v).map c.reload

/-! The instructions (R317). -/

/-- The register number, where its reserved bits are clear. -/
def sysNum (v : Word) : Nat := v.toNat

/-- SYSR (R317). -/
def execSysr (d a : Spec) (s : State) : Host.Outcome State Fault Refusal :=
  issued s fun c =>
    let n := sysNum (c.uval a)
    let p := sysReadPriv n
    c.gate
      { operand := !c.uniRegOk d 1 1 || !c.uniSrcOk a || p.isNone
        priv := c.priv < p.getD 0
        regs := specRegs d 1 ++ specRegs a 1 }
      fun c => .next (c.setSpec d (c.readSys n)) none

/-- SYSW (R317): a value that the register rejects is found when the write performs. -/
def execSysw (a b : Spec) (s : State) : Host.Outcome State Fault Refusal :=
  issued s fun c =>
    let n := sysNum (c.uval a)
    let p := sysWritePriv n
    c.heldOp
      { noRegion := true
        operand := !c.uniSrcOk a || !c.uniSrcOk b || p.isNone
        priv := c.priv < p.getD 0
        regs := specRegs a 1 ++ specRegs b 1 }
      (fun c0 => .ok c0.newHold)
      (fun c _ => match c.writeSys (sysNum (c.uval a)) (c.uval b) with
        | some c' => .next c' none
        | none => c.fail .illegalOperand)

/-! Function pages (R370). -/

/-- The state that an event leaves. -/
def stateOf (s : State) : Host.Outcome State Fault Refusal → State
  | .next t => t
  | _ => s

/-- A host write to an offset of a function's page. DEDUCED, log entry 61. -/
def State.writePage (s : State) (fn off : Nat) (v : Dword) : State :=
  let w : Word := v.setWidth 32
  let f := fun (g : Function → Function) => s.updFunction fn g
  let m := fun (g : ModRegs → ModRegs) => if isVf fn then s else { s with mregs := g s.mregs }
  if s.inRecovery then (if isVf fn then s else s.writeRecovery off v)
  else if !s.presents fn then s
  else if 0x100 ≤ off && off < 0x210 then
    f fun x => { x with msgbuf := x.msgbuf.writes (off - 0x100) ((bytesOfNat 8 v.toNat).take (0x210 - off)) }
  else match off with
  | 0x000 => stateOf s (execHostWake fn w s)
  | 0x008 => f fun x => { x with winb := v &&& 0xFFFFFFFFFFFFE000 }
  | 0x010 => f fun x => { x with wins := w &&& 0xFFFFE000 }
  | 0x014 => f fun x => { x with wasx := w &&& 0xFFFF }
  | 0x018 => f fun x => { x with hmrb := v &&& 0xFFFFFFFFFFFFF000 }
  | 0x020 => if w.toNat % 16 ≤ 12 then f fun x => { x with hmrn := w &&& 0xF } else s
  | 0x024 => f fun x => { x with hmrh := w }
  | 0x210 => stateOf s (execMsggo fn (w.setWidth 2) s)
  | 0x800 => m fun x => { x with asrt := v }
  | 0x808 => m fun x => { x with qtb := v }
  | 0x810 => m fun x => { x with evr := v &&& 0xFFFFFFFFFFFFF000 }
  | 0x818 => if w.toNat % 16 ≤ 12 then m fun x => { x with evrn := w &&& 0xF } else s
  | 0x81C => m fun x => { x with evrh := w }
  | 0x828 => if isVf fn then s else s.writeCrst w
  | _ => s

/-- What a host read of an offset of a function's page gives (R370, R408); a write-only register and every
other offset read 0. -/
def State.readPage (s : State) (fn off : Nat) : Dword :=
  let t := s.trust
  let g := s.function fn
  let why := match t.boot with
    | .recovery r => r
    | _ => 0
  if s.inRecovery then
    if isVf fn then 0 else
    match off with
    | 0x000 => BitVec.ofNat 64 (why % 16 + (if t.rbusy then 2 ^ 8 else 0) + t.rresult % 16 * 2 ^ 12)
    | 0x008 => t.raddr
    | 0x010 => t.rlen.setWidth 64
    | _ => 0
  else if !s.presents fn then 0
  else
    let m := fun (v : Dword) => if isVf fn then 0 else v
    match off with
    | 0x008 => g.winb
    | 0x010 => g.wins.setWidth 64
    | 0x014 => g.wasx.setWidth 64
    | 0x018 => g.hmrb
    | 0x020 => g.hmrn.setWidth 64
    | 0x024 => g.hmrh.setWidth 64
    | 0x028 => g.hmrt.setWidth 64
    | 0x214 => g.msgst.setWidth 64
    | 0x800 => m s.mregs.asrt
    | 0x808 => m s.mregs.qtb
    | 0x810 => m s.mregs.evr
    | 0x818 => m (s.mregs.evrn.setWidth 64)
    | 0x81C => m (s.mregs.evrh.setWidth 64)
    | 0x820 => m (s.mregs.evrt.setWidth 64)
    | _ => 0

/-- REGISTER_WRITE (R317, R370): a host's write to a page, or a write of a special register for a context at
host privilege, without effect where it has no write access or the value is rejected. -/
def execRegisterWrite (target : RegTarget) (value : Dword) (s : State) : Host.Outcome State Fault Refusal :=
  match target with
  | .page fn off => .next (s.writePage fn off value)
  | .sys fn asid num =>
    if num == 0 || (sysWritePriv num).isNone then .next s
    else .next (s.orSame (s.writeSys fn asid 2 num (value.setWidth 32)))

end Sys2Proof.Machine
end

