-- ==== Sys2Proof/Machine/System.lean ====
section
/-!
DEFINITION. The remaining system instructions (R145, R309, R310, R312 to R316, R333), what stands in place of an
instruction (R99, R118), and the events of a wave's own memory operations (R46, R207, R274).
-/

namespace Sys2Proof.Machine

/-! YIELD, traps and returns (R313, R315, R333). -/

/-- YIELD (R313): it changes nothing but the count that R329 keeps. -/
def execYield (s : State) : Host.Outcome State Fault Refusal :=
  issued s fun c => c.gate {} fun c => .next { c with st := { c.st with sinceYield := some 0 } } none

/-- TRAP (R315): it completes in sequence, and SW_TRAP is then taken at the instruction that follows. A trap
that ends the launch names the TRAP. -/
def execTrap (i : BitVec 16) (s : State) : Host.Outcome State Fault Refusal :=
  issued s fun c => c.gate {} fun c =>
    let t : Trap := { cls := .swTrap, info := i.setWidth 32 }
    if c.trapWaits then .park c .stall
    else if c.tvec == 0 || c.st.handler.isSome then .trap c t
    else .trap { c with f := c.f.counted.advance } t

/-- BKPT (R315). -/
def execBkpt (s : State) : Host.Outcome State Fault Refusal :=
  issued s fun c => c.gate {} fun c => c.fail .bkpt

/-- TRET (R333): outside a handler ILLEGAL_OP; a misaligned EPC is ALIGN, as a handler trap. -/
def execTret (s : State) : Host.Outcome State Fault Refusal :=
  issued s fun c =>
    let h := c.st.handler.bind fun h => if h.entry == c.r.entry then some h else none
    c.gate { illegal := h.isNone, regs := (List.range 8).map fun k => .s (16 + k) } fun c =>
      match h with
      | none => c.fail .illegalOp
      | some h =>
        let pc := c.st.regs.uni64 16
        if pc.toNat % 4 != 0 then .trap c { cls := .align, addr := pc } else .raw (c.returnTrap h).out

/-! Idempotent regions (R314, R335). -/

/-- IDEM (R314): the region opens at its own address; a restarted region is entered again by its IDEM. -/
def execIdem (s : State) : Host.Outcome State Fault Refusal :=
  issued s fun c =>
    let again := (c.st.region.map fun g => g.reenter && g.entry == c.r.entry).getD false
    c.gate { illegal := c.st.region.isSome && !again } fun c =>
      let g : Region :=
        { entryPc := c.f.pc, entry := c.r.entry, mask := c.f.mask, ctl := c.f.ctl
          tails := regionQueues.map fun q => (c.w.fifo q).next, restarted := again, opened := c.w.seq
          sqdrop := c.w.sqdrop }
      .next { c with st := { c.st with region := some g } } none

/-- IDEMX (R314): the region closes, and the entries it dequeued are freed. -/
def execIdemx (s : State) : Host.Outcome State Fault Refusal :=
  issued s fun c => c.gate { illegal := c.st.region.isNone } fun c =>
    let mine := if c.inA then regionQueues.drop 4 else regionQueues.take 4
    let w := mine.foldl (fun (w : Wave) q =>
      let f := w.fifo q
      w.setFifo q { f with entries := f.entries.drop f.taken, taken := 0 }) c.w
    .next { c with w := w, st := { c.st with region := none } } none

/-! Trace marks and counters (R316). -/

/-- MARK (R316, R403): the record names the issue site. -/
def execMark (a : Spec) (s : State) : Host.Outcome State Fault Refusal :=
  issued s fun c => c.heldOp { operand := !c.uniSrcOk a, regs := specRegs a 1 } (fun c0 => .ok c0.newHold)
    (fun c h =>
      .next { c with s := c.s.trace c.fn c.asid 1 c.w.core h.eseq c.f.pc ((c.uval a).setWidth 64) } none)

/-- PMRD (R316): bit 63 says that the bank is frozen under overlap. -/
def execPmrd (d a : Spec) (s : State) : Host.Outcome State Fault Refusal :=
  issued s fun c =>
    let n := (c.uval a).toNat
    c.gate
      { operand := !c.uniRegOk d 2 2 || !c.uniSrcOk a || 31 < n, regs := specRegs d 2 ++ specRegs a 1 }
      fun c =>
        let v := c.context.counters.getD n 0 % 2 ^ 63
        let o := if claimBit c.context.claims 3 (n / 8) then 2 ^ 63 else 0
        .next (c.setSpec64 d (BitVec.ofNat 64 (v + o))) none

/-! Successors and spawns (R309, R310). -/

/-- SUCC (R310). -/
def execSucc (a b : Spec) (s : State) : Host.Outcome State Fault Refusal :=
  issued s fun c =>
    let addr := c.uval64 b
    c.heldOp
      { noRegion := true
        operand := !c.uniSrcOk a || !c.uniRegOk b 2 2 || 3 < (c.uval a).toNat
        regs := specRegs a 1 ++ specRegs b 2
        post := if addr.toNat % 64 != 0 then some { cls := .align, addr := addr }
          else if Config.addressTop ≤ addr.toNat then some { cls := .protection, cause := 1, addr := addr }
          else none }
      (fun c0 => .ok c0.newHold)
      (fun c _ =>
        let s := c.s.updLaunch c.launchId fun l => { l with packet :=
          { l.packet with succ := l.packet.succ.set (c.uval a).toNat (c.uval64 b) } }
        .next ({ c with s := s } : Ctx).external none)

/-- A spawn record. -/
structure SpawnRec where
  nb : Nat
  gang : Nat
  arg : Dword
  bad : Bool

def SpawnRec.of (bs : List Byte) : SpawnRec :=
  let g := leAt bs 2 1
  { nb := leAt bs 0 2, gang := max g 1, arg := le64At bs 8
    bad := leAt bs 0 2 == 0 || 4 < g || leAt bs 3 5 != 0 }

/-- No cluster of the function's mask can hold a gang of this size (R60). -/
def State.gangTooBig (s : State) (fn gang : Nat) : Bool := s.badPlace (s.clusters? fn) gang

/-- Create the blocks of a spawn (R309): they wait for room with the shape of their launch. -/
def State.spawn (s : State) (lid : Nat) (r : SpawnRec) : State :=
  let l := s.launch lid
  let p := l.packet
  let n := r.gang * r.nb
  let mk := fun (i : Nat) =>
    ({ launch := lid, index := l.nextBlock + i, gang := l.nextGang + i / r.gang, member := i % r.gang
       gangSize := r.gang, spawn := some (BitVec.ofNat 32 i, BitVec.ofNat 32 r.nb, r.arg)
       scrSize := p.scr, wbufSize := p.wbuf, abufSize := p.abuf, cbufSize := p.cbuf, waitSince := s.time } : Block)
  { s.updLaunch lid fun l => { l with
      counter := l.counter + n, nextBlock := l.nextBlock + n, nextGang := l.nextGang + r.nb } with
    blocks := s.blocks ++ (List.range n).map mk }

/-- SPAWN (R309). In a fragment of helper lanes it creates nothing (R34). DEDUCED, log entry 52. -/
def execSpawn (x a : Spec) (la : BitVec 4) (s : State) : Host.Outcome State Fault Refusal :=
  issued s fun c =>
    let regs := specRegs x 1 ++ specRegs a 1
    let win := c.window la regs
    c.heldOp
      { noRegion := true, operand := !c.uniRegOk x 1 1 || !c.uniSrcOk a, regs := regs }
      (fun c0 =>
        if c0.allHelpers then .error (.next c0 win)
        else
          let off := (c0.uval a).toNat
          match c0.areaFault off 16 32 false with
          | some t => .error (.trap c0 t)
          | none =>
            let bs := c0.s.loadBytes c0.r.wave none (.scr c0.blockId) off 16
            if bs.2 then .error (.consume c0 (some { place := .scr c0.blockId, idx := off / 32 }))
            else
              let r := SpawnRec.of bs.1
              if r.bad then .error (c0.fail .illegalOperand)
              else if c0.s.gangTooBig c0.fn r.gang then .error (c0.protect 3)
              else .ok { c0.newHold with data := bs.1 })
      (fun c h =>
        let r := SpawnRec.of h.data
        let first := c.launch.nextBlock
        if 2 ^ 32 < first + r.gang * r.nb then c.protect 1
        else
          let c1 : Ctx := { c with s := c.s.spawn c.launchId r }
          .next (c1.external.setSpec x (BitVec.ofNat 32 first)) win)

/-! Shape entries (R145). -/

/-- SHLD (R145): a load of 48 bytes into the context's table. -/
def execShld (a : Spec) (la n : BitVec 4) (s : State) : Host.Outcome State Fault Refusal :=
  issued s fun c =>
    c.gate { operand := !c.uniRegOk a 2 2, regs := specRegs a 2 } fun c =>
      let va := (c.uval64 a).toNat
      if va % 16 != 0 then .trap c { cls := .align, addr := c.uval64 a }
      else
        let outs := (List.range 3).map fun i => c.virtOut false false 16 i (va + 16 * i)
        match firstOut outs with
        | some .wait => .park c .stall
        | some (.bad _ t) => .trap c { t with lane := 0 }
        | some (.miss at') => c.parkXlate at' false
        | _ =>
          let xs := outs.filterMap fun o => match o with
            | .ok y => some y
            | _ => none
          match xs.findSome? fun x => c.s.loadMark c.r.wave none x.place x.addr 16 with
          | some k => .consume c k
          | none =>
            let c := c.fillTlbs xs
            let ld : Load :=
              { id := c.w.seq, slice := c.r.slice, pc := c.f.pc, issued := c.s.cycle, dest := .shape n.toNat
                size := 16, signed := false, lanes := xs, part := 0, entry := c.r.entry, fence := c.st.fence, eseq := c.eseq }
            .next { c with w := { c.w with loads := c.w.loads ++ [ld], seq := c.w.seq + 1 } }
              (c.window la (specRegs a 2))

/-! WAITV (R312). -/

/-- A condition of WAITV on the masked word (R312). -/
def waitvHolds (cond : Nat) (w v : Word) : Bool :=
  match cond with
  | 0 => w == v
  | 1 => w != v
  | 2 => v ≤ w
  | 3 => w < v
  | 4 => v.toInt ≤ w.toInt
  | _ => w.toInt < v.toInt

/-- WAITV, its first poll and every later one: a strong load of 4 bytes at Mode.SC (R253, R312). -/
def Ctx.waitv (c : Ctx) (x a : Spec) (la : BitVec 4) (cond : BitVec 3) : Act :=
  let regs := specRegs x 2 ++ specRegs a 2
  let look := fun (c : Ctx) => c.virtOut false false 4 0 (c.uval64 a).toNat
  c.heldOp
    { illegal := 5 < cond.toNat, operand := !c.uniRegOk x 2 2 || !c.uniRegOk a 2 2, mode := badSc c.mode
      regs := regs }
    (fun c0 => match look c0 with
      | .ok _ => .ok c0.newHold
      | .miss va => .error (c0.parkXlate va false)
      | .bad _ t => .error (.trap c0 t)
      | .wait => .error (.park c0 .stall))
    (fun c _ => match look c with
      | .miss va => c.parkXlate va false
      | .bad _ t => .trap c t
      | .wait => .park c .stall
      | .ok y =>
        let r := c.s.strongReads c.blockId c.w.core c.sc .dev y.addr 4
        match c.strongBad r.1 [y] with
        | some k => .consume c k
        | none =>
          let c : Ctx := ({ c with s := r.1 } : Ctx).externalIf (2 ≤ c.sc)
          let m := c.uval64 x
          let w : Word := BitVec.ofNat 32 (natOfBytes r.2) &&& loWord m
          if waitvHolds cond.toNat w (hiWord m) then .next (c.watched false [y]) (c.window la regs)
          else .park c .waitv)

/-- WAITV (R312). -/
def execWaitv (x a : Spec) (la : BitVec 4) (c : BitVec 3) (s : State) : Host.Outcome State Fault Refusal :=
  issued s fun k => k.waitv x a la c
/-- WAITV_POLL (R312): a later poll of a WAITV that is parked. -/
def execWaitvPoll (x a : Spec) (la : BitVec 4) (c : BitVec 3) (s : State) :
    Host.Outcome State Fault Refusal :=
  issued s fun k => k.waitv x a la c

/-! What stands in place of an instruction (R97, R99, R118). -/

/-- An unassigned opcode, or a nonzero reserved field (R97, R118). -/
def execUnassignedOpcode (_word : Word) (s : State) : Host.Outcome State Fault Refusal :=
  issued s fun c => c.fail .illegalOp

/-- A word whose fixed operand position names another operand (R161, R162, R304). -/
def badOperand (s : State) : Host.Outcome State Fault Refusal := issued s fun c => c.fail .illegalOperand

/-- The sector that the fetch at the fragment's PC reads (R99, R398). -/
def Ctx.fetchSite (c : Ctx) : Option SecKey :=
  match c.s.translate (some c.w.core) c.fn c.asid { fetch := true, priv := c.priv } c.f.pc.toNat with
  | .ok pa => some { place := .dev, idx := pa / 32 }
  | _ => none

/-- FETCH_FAULT (R99): a fault at the address being fetched, POISON, or a wait for the translation. -/
def execFetchFault (stop : FetchStop) (s : State) : Host.Outcome State Fault Refusal :=
  issued s fun c => match stop with
    | .protection cause => .trap c { cls := .protection, cause := cause, addr := c.f.pc }
    | .poison => .trap c { cls := .poison, site := c.fetchSite }
    | .miss => c.parkXlate c.f.pc.toNat false

/-! Loads, stores and copies of a wave (R46, R207, R215, R274). -/

/-- LOAD_RETURN (R46). DEDUCED, log entry 6. -/
def execLoadReturn (wave load : Nat) (s : State) : Host.Outcome State Fault Refusal :=
  .next (s.loadReturn wave load)

/-- A held instruction has settled (R207, R226, R227). -/
def Hold.settle (w : Wave) (now : Nat) (behind : Bool) (h : Hold) : Hold :=
  { h with settled := h.settled || (w.settledStore now h.seq h.issued && !behind) }

/-- Mark the held instructions of a wave that have settled; `behind` says what the order of the streams keeps back
(R226). -/
def Wave.settleHolds (w : Wave) (now : Nat) (behind : Slice → Nat → Bool) : Wave :=
  let go := fun (sl : Slice) (st : Stream) => st.mapFrags fun f => match f.hold with
    | some h =>
      let h := h.settle w now (behind sl h.fence)
      { f with hold := some h, park := if h.settled && f.park == some .stall then none else f.park }
    | none => f
  { w with a := w.a.map (go .a), c := go .c w.c }

/-- SETTLE_WINDOW_EXPIRY (R207): the stores and held instructions of a wave that are due settle, a wave whose
streams have ended retires (R215), a block that is stopping may have settled, and so may a trap that ends the launch
(R339). DEDUCED, log entries 54 and 83. -/
def State.settleWave (s : State) (w : Nat) : State :=
  let s := s.settleStores w
  (((s.updWave w fun x => x.settleHolds s.cycle (s.behind w)).retireWave w).finishBlock (s.blockOf w)).goEnd (s.launchOf w)

/-- SETTLE_WINDOW_EXPIRY (R207). -/
def execSettleWindowExpiry (wave : Nat) (s : State) : Host.Outcome State Fault Refusal := .next (s.settleWave wave)

/-- COPY_COMPLETE (R274). -/
def execCopyComplete (core idx : Nat) (s : State) : Host.Outcome State Fault Refusal := .next (s.copyEvent core idx)

end Sys2Proof.Machine
end

