-- ==== Sys2Proof/Machine/Account.lean ====
section
/-!
DEFINITION. What the module keeps about issues and cycles: the counters of issues, cycles and waits, the lane-cycle
record, the replay queues, the snapshots that rollback restores, the YIELD window, sampling, and the screens that
an instruction abandons (R329, R391, R394, R395, R402 to R404).
-/

namespace Sys2Proof.Machine

/-! Screens (R395). -/

/-- An instruction that no screen can repeat (R395), ACPY apart, which says so itself. -/
def unscreens : Instr → Bool
  | .sldd .. | .sstd .. | .ats .. | .atd .. | .atx .. | .ath .. | .waitv .. | .waitvPoll .. | .time .. | .recv ..
  | .msend .. | .spawn .. | .succ .. | .sstart .. | .ldx .. | .stx .. | .ldh .. | .sth .. => true
  | _ => false

/-! The replay queues (R394). -/

/-- The destination of a lane-executed format R arithmetic instruction. -/
def replayDest : Instr → Option Spec
  | .iadd d _ _ | .isub d _ _ | .imul d _ _ | .imulh d _ _ | .imad d _ _ | .imin d _ _ | .imax d _ _
  | .iabs d _ | .ineg d _ | .and d _ _ | .or d _ _ | .xor d _ _ | .andn d _ _ | .shl d _ _ | .shr d _ _
  | .sar d _ _ | .rol d _ _ | .popc d _ | .clz d _ | .ctz d _ | .brev d _ | .bfx d _ _ | .bfi d _ _
  | .sel d _ _ | .aadd d _ _ | .amad d _ _ | .fadd d _ _ | .fsub d _ _ | .fmul d _ _ | .ffma d _ _
  | .ffms d _ _ | .fmin d _ _ | .fmax d _ _ | .fabs d _ | .fneg d _ | .frnd d _ | .fcls d _ | .cvt d _ _ _
  | .pack2 d _ _ | .unpk d _ | .dot4 d _ _ => some d
  | _ => none

/-- The sources of such an instruction, each at its width and under the type in which it is read; one that reads its destination reads it
last. -/
def replaySrcs (c : Ctx) : Instr → List Src
  | .iadd _ a b | .isub _ a b | .imul _ a b | .imulh _ a b | .imin _ a b | .imax _ a b | .and _ a b | .or _ a b
  | .xor _ a b | .andn _ a b | .fadd _ a b | .fsub _ a b | .fmul _ a b | .fmin _ a b | .fmax _ a b =>
    [typed c.et a, typed c.et b]
  | .shl _ a b | .shr _ a b | .sar _ a b | .rol _ a b | .bfx _ a b => [typed c.et a, count32 b]
  | .imad d a b | .ffma d a b | .ffms d a b | .dot4 d a b => [typed c.et a, typed c.et b, { spec := d, w64 := c.w64, raw := true }]
  | .bfi d a b => [typed c.et a, count32 b, { spec := d, w64 := c.w64, raw := true }]
  | .sel d a b => [{ spec := a, et := some (narrowEt c.et) }, typed c.et b, { spec := d, w64 := c.w64, raw := true }]
  | .aadd _ a b => [{ spec := a, w64 := true, raw := true }, count32 b]
  | .amad d a b => [count32 a, count32 b, count32 d]
  | .pack2 _ a b => [{ spec := a, et := some 5 }, { spec := b, et := some 5 }]
  | .iabs _ a | .ineg _ a | .popc _ a | .clz _ a | .ctz _ a | .brev _ a | .fabs _ a | .fneg _ a | .frnd _ a | .fcls _ a
  | .unpk _ a => [typed c.et a]
  | .cvt d a _ k =>
    cvtSource c.et k.toNat a :: (if etPacked c.et && k.toNat < 6 then [{ spec := d, raw := true }] else [])
  | _ => []

/-- How many registers it writes: the elements that UNPK widens (R150), the pair of AADD (R144), one of AMAD and of FCLS
whatever the type (R144, R147), else those of the element type. -/
def replayRegs (c : Ctx) : Instr → Nat
  | .unpk .. => etCount c.et
  | .aadd .. => 2
  | .amad .. | .fcls .. => 1
  | _ => if c.w64 then 2 else 1

/-- Queue a result for replay: one lane of the vector registers that the instruction has written, with the instruction and
the operands of that lane; a quadrant keeps the newest 16. -/
def State.keepReplay (s : State) (c : Ctx) (i : Instr) : State :=
  match replayDest i with
  | some (.v n) =>
    let lane := Config.replayLane s.cycle % 32
    let q := c.w.slot / 8
    let got := fun (k : Nat) => (((s.wave c.r.wave).stream c.r.slice).regs.vec k).lane lane
    let operands := match c.readAll (replaySrcs c i) with
      | .ok _ vs => vs.map fun v => v lane
      | _ => []
    let e : Replay :=
      { quadrant := q, issued := c.s.cycle, instr := i, lane := lane, operands := operands
        result := (List.range (replayRegs c i)).map fun k => got (n + k)
        pc := c.f.pc, eseq := c.w.eseq, wave := c.r.wave, slice := c.r.slice }
    if !c.part.getLsbD lane then s
    else s.updCore c.w.core fun k =>
      let mine := k.replay.filter (·.quadrant == q)
      { k with replay := (k.replay.filter (·.quadrant != q)) ++ mine.drop (mine.length - 15) ++ [e] }
  | _ => s

/-! Rollback's memory (R391). -/

/-- The stream whose open region a step has restarted (R335). -/
def restartedIn (old now : Wave) : Option Slice :=
  [Slice.a, Slice.c].find? fun sl => match (old.stream sl).region, (now.stream sl).region with
    | some g, some g' => !g.restarted && g'.restarted
    | _, _ => false

/-- Keep a wave as it was in `s`, before a step to `t` that changed it: an issue of its, a load that returned to it
or a grant. What lies more than 128 cycles back is forgotten. -/
def State.keepSnapshot (t s : State) (w : Nat) : State :=
  let old := s.wave w
  if (t.wave w).retired || t.wave w == old then t
  else
    let mark := (s.core old.core).nextInput
    t.updCore old.core fun k =>
      let h := (k.history.filter fun x => s.cycle ≤ x.cycle + Config.settle) ++
        [{ cycle := s.cycle, mark := mark, wave := w, state := old, restarted := restartedIn old (t.wave w) }]
      let low := (h.head?.map (·.mark)).getD mark
      { k with
        history := h
        performed := k.performed.filter fun p => s.cycle ≤ p.done + Config.settle
        inputs := k.inputs.filter fun x => low ≤ x.1 }

/-- Record that a held instruction has performed, or the arrival of one that waits on (R268). -/
def State.keepPerformed (s : State) (c : Ctx) (h : Hold) : State :=
  s.updCore c.w.core fun k => { k with performed := k.performed ++
    [{ ref := c.r, issued := h.issued, done := c.s.cycle, mark := (c.s.core c.w.core).nextInput, before := c.w
       after := s.wave c.r.wave }] }

/-! The lane-cycle record (R404). -/

/-- Lanes of a mask. -/
def lanesIn (m : Mask) : Nat := (lanes.filter fun l => m.getLsbD l).length

/-- Totals of an issue: active, divergence-masked, predicated-off, absent, idle, loss of decoupling. A helper
lane is absent. -/
def Ctx.classes (c : Ctx) : List Nat :=
  [lanesIn c.partLive, lanesIn (c.liveNow &&& ~~~c.f.mask), lanesIn (c.f.mask &&& c.liveNow &&& ~~~c.guard),
   lanesIn (~~~c.liveNow), 0, 0]

/-- The bin of a PC: the lowest range that holds it, else the seventeenth. -/
def LaneCycles.bin (x : LaneCycles) (pc : Option Dword) : Nat :=
  match pc with
  | none => 16
  | some a => ((List.range 16).find? fun i => match x.ranges[i]? with
    | some r => r.1 ≤ a && a ≤ r.2
    | none => false).getD 16

/-- Add totals to the bin of a PC. -/
def LaneCycles.add (x : LaneCycles) (pc : Option Dword) (v : List Nat) : LaneCycles :=
  let b := x.bin pc
  let bins := if x.bins.isEmpty then List.replicate 17 (List.replicate 6 0) else x.bins
  { x with bins := bins.modify b fun l => (List.range 6).map fun i => l.getD i 0 + v.getD i 0 }

/-- An issue as the accounts see it: its fragment, core, quadrant, PC and lane totals. -/
structure Issue where
  ref : FragRef
  core : Nat
  quadrant : Nat
  pc : Dword
  classes : List Nat

/-- The resident waves of a context. -/
def State.residentOf (s : State) (fn asid : Nat) : List Nat :=
  (s.wavesOf fn asid).filter fun w => (s.block (s.wave w).block).phase == .resident

/-- The address stream of the wave waits in CQGET (R49). -/
def Wave.awaitsCq (w : Wave) : Bool := (w.stream .a).live.any fun x => x.2.park == some .cqget

/-- The fragment is parked on a cell (R180). -/
def Frag.onCell (f : Frag) : Bool :=
  match f.park with
  | some (.cell _ _ woken _) => !woken
  | _ => false

/-- Where the address stream of the wave waits in CQGET. -/
def Wave.cqPc (w : Wave) : Option Dword :=
  ((w.stream .a).live.find? fun f => f.2.park == some .cqget).map (·.2.pc)

/-- A slot in which nothing of the context issues, over `n` cycles: its lanes are idle, at the PC of a waiting
stream. -/
def idleSlot (ws : List Wave) (sl : Slice) (n : Nat) (x : LaneCycles) : LaneCycles :=
  let pc := ((if sl == .a then ws.findSome? Wave.cqPc else none).orElse fun _ =>
    ws.findSome? fun w => ((w.stream sl).live.head?).map (·.2.pc))
  x.add pc [0, 0, 0, 0, 32 * n, 0]

/-- Each address stream that waits in CQGET loses its decoupling in every cycle of its wait, whatever else issues in
its slot (R49). -/
def lostSlots (ws : List Wave) (n : Nat) (x : LaneCycles) : LaneCycles :=
  (ws.filter Wave.awaitsCq).foldl (fun x w => x.add w.cqPc [0, 0, 0, 0, 0, 32 * n]) x

/-- The record of a context over `n` cycles, in the first of which these fragments have issued. -/
def State.laneCycles (s : State) (c : Context) (iss : List Issue) (n : Nat) : LaneCycles :=
  let ws := s.residentOf c.fn c.asid
  let slots := (ws.map fun w => ((s.wave w).core, (s.wave w).slot / 8)).eraseDups
  slots.foldl (fun x q =>
    let mine := (ws.map s.wave).filter fun w => w.core == q.1 && w.slot / 8 == q.2
    [Slice.a, Slice.c].foldl (fun x sl =>
      match iss.find? fun i => i.core == q.1 && i.quadrant == q.2 && i.ref.slice == sl && ws.contains i.ref.wave with
      | some i => x.add (some i.pc) i.classes
      | none => idleSlot mine sl n x) (lostSlots mine n x)) c.lanes

/-! Cycles (R49, R402). -/

/-- What a context counts in `n` cycles: cycles of its cores, loss of decoupling, and waits on cells. -/
def State.countCycles (s : State) (n : Nat) (c : Context) : Context :=
  let ws := s.residentOf c.fn c.asid
  let cores := ((ws.map fun w => (s.wave w).core).eraseDups).length
  let cq := (ws.filter fun w => (s.wave w).awaitsCq).length
  let bar := (ws.filter fun w => (s.wave w).frags.any Frag.onCell).length
  ((c.countEvent 1 (n * cores)).countEvent 5 (n * cq)).countEvent 11 (n * bar)

/-- The samples that fall due in the next `n` running cycles (R403): one per core that holds a wave of the context for each
period that ends in them. -/
def State.sample (s : State) (n : Nat) : State :=
  s.contexts.foldl (fun s c =>
    let p := 2 ^ (10 + (c.trace.ctl.toNat / 4 % 16))
    if c.running && c.trace.ctl.getLsbD 1 then
      (List.range ((c.trace.ran + n) / p - c.trace.ran / p)).foldl (fun s _ =>
        (((s.residentOf c.fn c.asid).map fun w => (s.wave w).core).eraseDups).foldl
          (fun s k => s.traceSample c.fn c.asid k) s) s
    else s) s

/-- `n` cycles pass, in the first of which these fragments have issued. -/
def State.tick (s : State) (n : Nat) (iss : List Issue) : State :=
  let s := s.refreshRunning.sample n
  { s with contexts := s.contexts.map fun (c : Context) =>
      let c := s.countCycles n (if c.running then { c with trace := { c.trace with ran := c.trace.ran + n } } else c)
      if c.lanes.en then { c with lanes := s.laneCycles c iss n } else c }.elapse n

/-! An issue (R329, R402). -/

/-- The fragment stands where it stood: its instruction was not executed. One that has come to a JOIN, a MEET or a
GROW has executed it once, and waits there. -/
def Ctx.stands (c : Ctx) (after : Option Ctx) : Bool :=
  match after with
  | none => false
  | some a =>
    a.f.pc == c.f.pc && a.f.hold.isNone && match a.f.park with
      | none => false
      | some (.join _) | some .meet | some (.grow _) => a.f.park == c.f.park
      | some _ => true

/-- A stream has issued one more instruction since its last YIELD. -/
def Stream.sinceOne (st : Stream) (i : Instr) : Stream :=
  if i = .yield then st else { st with sinceYield := st.sinceYield.map (· + 1) }

/-- Account for an instruction that fragment `c` has issued, `t` being the state after it. A MEET that has waited
was counted when it came to wait. -/
def State.accountIssue (t : State) (c : Ctx) (i : Instr) : State :=
  if c.f.park == some .meet then t
  else
    let t := t.count c.fn c.asid (if c.inA then 2 else 3) 1
    t.updWave c.r.wave fun w => w.setStream c.r.slice ((w.stream c.r.slice).sinceOne i)

/-- The fragment, after the instruction, has neither parked nor been held nor entered or left a handler. -/
def Ctx.completed (c a : Ctx) : Bool :=
  a.f.hold.isNone && a.f.park.isNone && a.st.handler == c.st.handler

/-- A held instruction has taken its effect, though it waits on. -/
def Ctx.nowArrived (c a : Ctx) : Bool :=
  (c.f.hold.map (·.arrived)) == some false && (a.f.hold.map (·.arrived)) == some true

/-- A single step has nothing more to issue: its instruction has completed or is gone (R346). -/
def State.endStep (t : State) (c : Ctx) (a : Option Ctx) : State :=
  if c.context.released == some c.r && (a.map fun a => a.f.hold.isNone && a.f.park.isNone).getD true then
    t.updContext c.fn c.asid fun x => { x with released := none }
  else t

/-- Account for what an instruction or the second part of a held one has done. -/
def State.account (t : State) (c : Ctx) (i : Instr) : State :=
  let a := Ctx.of? t c.r
  let done := match a with
    | some a => c.completed a
    | none => false
  let did := done || (a.map c.nowArrived).getD false
  let t := t.endStep c a
  let t := match c.f.hold with
    | some h => if did then t.keepPerformed c h else t
    | none => if c.stands a then t else t.accountIssue c i
  let t := if done && c.f.hold.isNone then t.keepReplay c i else t
  if done && unscreens i then t.unscreen c.r.wave else t

/-! A held commit under way (R208, R240). -/

/-- The level to which a word commits: that of a CMT or a SYNC. -/
def commitLevel (w : Word) : Option Nat :=
  match decodeWord w with
  | .ok (.cmt _ v) => some v.toNat
  | .ok (.sync _ v) => some v.toNat
  | _ => none

/-- One sector of those that a settled CMT or SYNC moves climbs one level before the others, the `i`-th of those
that no lock keeps and no peer takes. DESIGN CHOICE, log entry 64. -/
def State.drainOne (s : State) (r : FragRef) (i : Nat) : State :=
  match Ctx.of? s r with
  | none => s
  | some c =>
    match c.f.hold.bind fun h => (commitLevel h.word).map (h, ·) with
    | none => s
    | some (h, L) =>
      let isPeer := fun (k : Sector) => match k.key.place with
        | .peer _ => true
        | _ => false
      let mine := ((List.range (min L 4)).flatMap fun n => (s.heldAt r.wave h.seq n).map (n, ·)).filter fun k =>
        !isPeer k.2 && !k.2.lockedBytes (s.spansAt c.w.core k.2)
      if !h.settled || h.arrived || c.allHelpers || c.w.pend.any (·.seq < h.seq) || !s.commitRoom r.wave L h.seq then s
      else match mine[i]? with
        | none => s
        | some k => ((c.global fun s => (s.commitWhere r.wave L h.seq false fun n x => n == k.1 && x == k.2.key).1).externalIf (2 ≤ L)).out

end Sys2Proof.Machine
end

