-- ==== Sys2Proof/Machine/Matrix.lean ====
section
/-!
DEFINITION. The matrix units and tile handles (R86 to R89, R188 to R192, R280 to R294).
-/

namespace Sys2Proof.Machine

/-! Operand words (R281, R282). -/

/-- The format block, by its fields. -/
structure FormatBlock where
  af : Nat
  bf : Nat
  bl32 : Bool
  int32 : Bool
  scl : Bool
  ks : Nat
  sao : Nat
  sbo : Nat
  rsv : Bool

def FormatBlock.of (f0 f1 : Word) : FormatBlock :=
  let f := fun (lo len : Nat) => f0.toNat / 2 ^ lo % 2 ^ len
  { af := f 0 3, bf := f 3 3, bl32 := f0.getLsbD 6, int32 := f0.getLsbD 7, scl := f0.getLsbD 8
    ks := f 9 7, sao := f 16 13, sbo := f1.toNat % 2 ^ 13
    rsv := f 29 3 != 0 || f1.toNat / 2 ^ 13 != 0 }

/-- Both elements are KD8, the only format with block scales (R83, R282). -/
def FormatBlock.kd8 (b : FormatBlock) : Bool := b.af == 0 && b.bf == 0

/-- The pairing stands in the table of R86. -/
def FormatBlock.pairOk (b : FormatBlock) : Bool :=
  (b.af == 0 && b.bf == 0 && !b.int32) || (b.af == 1 && b.bf == 1 && b.int32) ||
  (b.af == 2 && b.bf == 2 && b.int32) || ((b.af == 3 || b.af == 4) && (b.bf == 3 || b.bf == 4) && !b.int32)

/-- K per step (R86). -/
def stepK (af : Nat) : Nat := if af == 2 then 32 else if af == 0 || af == 1 then 16 else 8

/-- A tile word's handle and tile index, and its reserved bits (R281). -/
def tileHandle (w : Word) : Nat := w.toNat % 65536
def tileIndex (w : Word) : Nat := w.toNat / 65536 % 64
def tileRsv (w : Word) : Bool := w.toNat / 2 ^ 22 != 0

/-- A group of rows with its B tile and B scales: all 32 rows for MMX (R288). -/
structure Group where
  first : Nat
  rows : Nat
  bh : Nat
  bo : Nat
  sbo : Nat
  deriving DecidableEq, Repr

/-- The scale block of a step (R282). -/
def FormatBlock.scaleBlock (b : FormatBlock) : Nat := 16 * b.ks / (if b.bl32 then 32 else 16)

/-- Scratchpad offset of a scale array's block. -/
def FormatBlock.scaleAt (b : FormatBlock) (so : Nat) : Nat := 32 * so + 32 * b.scaleBlock

/-! The checks of R287. -/

/-- A handle that a matrix instruction names: the buffer it must be of, and the bytes used in its region. -/
structure TileUse where
  handle : Nat
  buf : Buf
  lo : Nat
  len : Nat

/-- The traps of handles in the order of R287: stale, owner, buffer, range. -/
def Ctx.tileFault (c : Ctx) (us : List TileUse) : Option Trap :=
  let e := fun (u : TileUse) => c.coreState.handle (hIdx u.handle)
  match us.find? fun u => !(e u).current u.handle with
  | some u => some { cls := .handleStale, info := BitVec.ofNat 32 u.handle }
  | none =>
    if us.any fun u => (e u).launch != c.launchId then some { cls := .protection, cause := 7 }
    else if us.any fun u => (e u).buf != u.buf then some { cls := .protection, cause := 2 }
    else (us.find? fun u => (e u).len < u.lo + u.len).map fun u =>
      { cls := .protection, cause := 1, addr := BitVec.ofNat 64 u.lo }

/-- The place and offset of a tile: in the buffer of the block that allocated its handle. -/
def Ctx.tileAt (c : Ctx) (u : TileUse) : Place × Nat :=
  let e := c.coreState.handle (hIdx u.handle)
  (.typed e.block e.buf, e.off + u.lo)

/-- The tile that an instruction which is no user of its handle writes, kept from its issue (R190, R291). -/
def Ctx.keepTile (c : Ctx) (w : Word) : List Dword :=
  let e := c.coreState.handle (hIdx (tileHandle w))
  [BitVec.ofNat 64 e.block, BitVec.ofNat 64 (e.off + 4096 * tileIndex w)]
def keptTile (h : Hold) : Place × Nat := (.typed (h.rows.getD 0 0).toNat .c, (h.rows.getD 1 0).toNat)

/-- The bytes of a tile meet a lock (R195, R287). -/
def Ctx.tileLocked (c : Ctx) (u : TileUse) (write : Bool) : Bool :=
  let p := c.tileAt u
  let sp := lockSpace p.1
  c.coreState.locked sp.1 sp.2 p.2 (p.2 + u.len - 1) write

def bUse (g : Group) : TileUse := { handle := g.bh, buf := .w, lo := 512 * g.bo, len := 512 }
def cUse (w : Word) : TileUse := { handle := tileHandle w, buf := .c, lo := 4096 * tileIndex w, len := 4096 }

/-- Scale arrays that a step reads, as scratchpad offsets of 32 bytes. -/
def scaleUses (b : FormatBlock) (gs : List Group) : List Nat :=
  if b.kd8 && b.scl then b.scaleAt b.sao :: gs.map fun g => b.scaleAt g.sbo else []

/-! Elements (R283). -/

/-- Element k of an A row, or of a B column, as an exact value. -/
def floatElem (fmt : Nat) (lo hi : Byte) : XReal :=
  match fmt with
  | 0 => kd8Value lo
  | 3 => bf16.decode (lo.toNat + 256 * hi.toNat)
  | _ => f16.decode (lo.toNat + 256 * hi.toNat)

/-- Element k of an A row of 16 bytes. -/
def aFloat (af : Nat) (row : List Byte) (k : Nat) : XReal :=
  if af == 0 then floatElem 0 (row.getD k 0) 0 else floatElem af (row.getD (2 * k) 0) (row.getD (2 * k + 1) 0)
def aInt (af : Nat) (row : List Byte) (k : Nat) : Int :=
  if af == 1 then intOf true 8 (row.getD k 0).toNat
  else intOf true 4 ((row.getD (k / 2) 0).toNat / 16 ^ (k % 2) % 16)

/-- Element (k, j) of a B tile of 512 bytes. -/
def bFloat (bf : Nat) (t : List Byte) (k j : Nat) : XReal :=
  if bf == 0 then floatElem 0 (t.getD (32 * k + j) 0) 0
  else floatElem bf (t.getD (64 * k + 2 * j) 0) (t.getD (64 * k + 2 * j + 1) 0)
def bInt (bf : Nat) (t : List Byte) (k j : Nat) : Int :=
  if bf == 1 then intOf true 8 (t.getD (32 * k + j) 0).toNat
  else intOf true 4 ((t.getD (16 * k + j / 2) 0).toNat / 16 ^ (j % 2) % 16)

/-- One element of C after a step (R87, R89). -/
def stepElem (b : FormatBlock) (sat : Bool) (row tile : List Byte) (sigma : Int) (j : Nat) (acc : Word) : Word :=
  let ks := List.range (stepK b.af)
  if b.int32 then
    let t := ks.foldl (fun t k => t + aInt b.af row k * bInt b.bf tile k j) 0
    BitVec.ofNat 32 (storeInt sat true 32 (intOf true 32 acc.toNat + t))
  else
    let t := segmentSum (ks.map fun k => (aFloat b.af row k).mul (bFloat b.bf tile k j))
    accumulate acc (if b.kd8 then t.scale10 sigma else t)

/-! MMX and GMMX (R285 to R288). -/

/-- The order number of the instruction that the fragment holds: what its wave stored later it does not see. -/
def Ctx.heldSeq (c : Ctx) : Option Nat := c.f.hold.map (·.seq)

/-- A byte of CBUF, WBUF or ABUF as the wave's matrix instructions see it: its own unsettled STT first
(R284). -/
def Ctx.tileByte (c : Ctx) (p : Place) (a : Nat) : Byte :=
  (c.w.wwbByte c.heldSeq p a).getD (c.s.readPlace p a)
def Ctx.tileBytes (c : Ctx) (p : Place × Nat) (n : Nat) : List Byte :=
  (List.range n).map fun k => c.tileByte p.1 (p.2 + k)

/-- The first poisoned sector of a range (R397). -/
def State.poisonIn (s : State) (p : Place) (a n : Nat) : Option SecKey :=
  ((List.range (n / 32 + 1)).find? fun k => s.poisoned p (min (a + 32 * k) (a + n - 1))).map fun k =>
    { place := p, idx := min (a + 32 * k) (a + n - 1) / 32 }

/-- The uniform words at a (R285). -/
def Ctx.words4 (c : Ctx) (a : Spec) : List Word :=
  match a with
  | .s n => (List.range 4).map fun i => c.rd.uni (n + i)
  | _ => [0, 0, 0, 0]

/-- The A source: a vector run, or a load queue (R285). -/
def Ctx.aSrcOk (c : Ctx) (x : Spec) : Bool :=
  match x with
  | .v n => c.vecRun n 4 4
  | .lq _ => c.w.decoupled
  | _ => false

/-- The four words of A in order. -/
def aWords (x : Spec) : List Src :=
  (List.range 4).map fun i =>
    match x with
    | .v n => { spec := .v (Fin.ofNat 128 (n + i)), raw := true }
    | y => { spec := y, raw := true }

/-- The eight groups of a table (R288). -/
def groupsOf (bs : List Byte) : List Group :=
  ((List.range 8).foldl (fun (acc : Nat × List Group) g =>
    let e := fun (lo len : Nat) => fieldAt bs (8 * g) 8 / 2 ^ lo % 2 ^ len
    (acc.1 + e 0 6, acc.2 ++ [{ first := acc.1, rows := e 0 6, bh := e 32 16, bo := e 16 16, sbo := e 48 13 }]))
    (0, [])).2
def groupsRsv (bs : List Byte) : Bool :=
  (List.range 8).any fun g => fieldAt bs (8 * g) 8 / 2 ^ 6 % 2 ^ 10 != 0 || fieldAt bs (8 * g) 8 / 2 ^ 61 != 0

/-- The groups of an MMX, or why a GMMX's table cannot be read. -/
def Ctx.matrixGroups (c : Ctx) (grouped : Bool) (b : FormatBlock) (w2 : Word) : Except Act (List Group) :=
  if !grouped then
    .ok [{ first := 0, rows := 32, bh := w2.toNat % 65536, bo := w2.toNat / 65536, sbo := b.sbo }]
  else
    let off := w2.toNat
    let addr : Dword := BitVec.ofNat 64 off
    if c.block.scrSize < off + 64 then .error (.trap c { cls := .protection, cause := 1, addr := addr })
    else if c.coreState.locked 0 c.blockId off (off + 63) false then
      .error (.trap c { cls := .rangeLocked, addr := addr })
    else
      let r := c.s.loadBytes c.r.wave none (.scr c.blockId) off 64
      if r.2 then .error (.consume c (c.s.loadMark c.r.wave none (.scr c.blockId) off 64))
      else
        let gs := groupsOf r.1
        if groupsRsv r.1 || (gs.map (·.rows)).foldl (· + ·) 0 != 32 then .error (c.fail .illegalOperand)
        else .ok (gs.filter fun g => g.rows != 0)

/-- The traps of R287, positions 3 to 5, with the scale ranges. -/
def Ctx.matrixFault (c : Ctx) (b : FormatBlock) (gs : List Group) (cw : Word) : Option Trap :=
  let us := gs.map bUse ++ [cUse cw]
  match c.tileFault us with
  | some t => some t
  | none =>
    let sc := scaleUses b gs
    match sc.find? fun o => c.block.scrSize < o + 32 with
    | some o => some { cls := .protection, cause := 1, addr := BitVec.ofNat 64 o }
    | none =>
      if (gs.any fun g => c.tileLocked (bUse g) false) || c.tileLocked (cUse cw) true
      then some { cls := .rangeLocked }
      else (sc.find? fun o => c.coreState.locked 0 c.blockId o (o + 31) false).map fun o =>
        { cls := .rangeLocked, addr := BitVec.ofNat 64 o }

/-- The group of a row. -/
def groupOf (gs : List Group) (i : Nat) : Group :=
  (gs.find? fun g => g.first ≤ i && i < g.first + g.rows).getD { first := 0, rows := 0, bh := 0, bo := 0, sbo := 0 }

/-- Perform a matrix step on the C tile: rows that take part (R285, R288). -/
def Ctx.matrixStep (c : Ctx) (b : FormatBlock) (gs : List Group) (cw : Word) (a : List Byte) (part : Mask) : State :=
  let cp := c.tileAt (cUse cw)
  let tiles := gs.map fun g => (g.first, c.tileBytes (c.tileAt (bUse g)) 512)
  let sig := fun (so i : Nat) =>
    if b.kd8 && b.scl then
      intOf true 8 ((c.s.loadByte c.r.wave c.heldSeq (.scr c.blockId) (b.scaleAt so + i)).1).toNat
    else 0
  (lanes.filter fun i => part.getLsbD i).foldl (fun s i =>
    let g := groupOf gs i
    let tile := ((tiles.find? (·.1 == g.first)).map (·.2)).getD []
    let row := (a.drop (16 * i)).take 16
    let at' := cp.2 + 128 * i
    let old := c.tileBytes (cp.1, at') 128
    let new := lanes.flatMap fun j =>
      bytesOfWord (stepElem b c.sat row tile (sig b.sao i + sig g.sbo j) j
        (BitVec.ofNat 32 (fieldAt old (4 * j) 4)))
    s.writeBytes cp.1 at' new) c.s

/-- The first poisoned sector among the scales that a step reads, as wave loads (R282, R397): of A for its rows, of B for
every column of their groups. -/
def Ctx.scaleMark (c : Ctx) (b : FormatBlock) (gs : List Group) (rows : List Nat) : Option SecKey :=
  let mark := fun (o n : Nat) => c.s.loadMark c.r.wave c.heldSeq (.scr c.blockId) o n
  if b.kd8 && b.scl then
    (rows.findSome? fun i => mark (b.scaleAt b.sao + i) 1).orElse fun _ => gs.findSome? fun g => mark (b.scaleAt g.sbo) 32
  else none

/-- What a matrix step reads that is poisoned, in the rows that take part alone: the B tile and scales of their groups, the
scales of A, the rows of C (R280, R397). -/
def Ctx.matrixBad (c : Ctx) (b : FormatBlock) (gs : List Group) (cw : Word) (part : Mask) : Option SecKey :=
  let rows := lanes.filter fun i => part.getLsbD i
  let gs := gs.filter fun g => rows.any fun i => g.first ≤ i && i < g.first + g.rows
  let cp := c.tileAt (cUse cw)
  if rows.isEmpty then none
  else (((gs.findSome? fun g => let p := c.tileAt (bUse g); c.s.poisonIn p.1 p.2 512).orElse fun _ =>
    rows.findSome? fun i => c.s.poisonIn cp.1 (cp.2 + 128 * i) 128).orElse fun _ =>
    c.scaleMark b gs rows)

/-- A held matrix operation no longer uses its handles. -/
def Ctx.dropUsers (c : Ctx) (h : Hold) : Ctx := { c with s := h.users.foldl (fun s k => s.dropUser c.w.core k) c.s }

/-- MMX and GMMX: checks, latch and A at issue, where event 4 counts the step (R402); B, C and the scales are read, and the
tile is written, after settling (R284). DEDUCED, log entry 40. -/
def matrixOp (x a : Spec) (la : BitVec 4) (r : Bool) (grouped : Bool) (c : Ctx) : Act :=
  let ws := c.words4 a
  let w := fun (i : Nat) => ws.getD i 0
  let b := FormatBlock.of (w 0) (w 1)
  let badWords := b.rsv || 4 < b.af || 4 < b.bf || !b.pairOk || tileRsv (w 3) ||
    (grouped && (w 2).toNat % 64 != 0) ||
    (match c.w.latch with | some l => l.af != b.af | none => false)
  let xr := match x with | .v _ => specRegs x 4 | _ => []
  let win := c.window la (xr ++ specRegs a 4)
  c.heldOp
    { illegal := c.inA, noRegion := true
      operand := !c.aSrcOk x || !c.uniRegOk a 4 4 || badWords
      guard := true
      regs := xr ++ specRegs a 4 }
    (fun c0 =>
      match c0.matrixGroups grouped b (w 2) with
      | .error act => .error act
      | .ok gs =>
        match c0.matrixFault b gs (w 3) with
        | some t => .error (.trap c0 t)
        | none =>
          let hs := (gs.map (·.bh)) ++ [tileHandle (w 3)]
          let go := fun (c1 : Ctx) (rows : List (List Byte)) =>
            let latch := if r then some { af := b.af, rows := rows } else none
            let s := hs.foldl (fun s h => s.addUser c1.w.core h) c1.s
            .error (.hold { c1 with s := s.count c1.fn c1.asid 4 1, w := { c1.w with latch := latch } }
              { c0.newHold with
                data := rows.flatMap id
                users := hs
                rows := gs.map fun g => BitVec.ofNat 64 (g.first + 64 * g.rows + 4096 * g.bh + 2 ^ 28 * g.bo + 2 ^ 44 * g.sbo)
                lanesDone := c0.part })
          match c0.w.latch with
          | some l => go c0 l.rows
          | none =>
            match c0.readAll (aWords x) with
            | .stall => .error (.park c0 .queue)
            | .trap t => .error (.trap c0 t)
            | .marked c1 k => .error (.consume c1 k)
            | .ok c1 vals =>
              go c1 (lanes.map fun i =>
                if c0.part.getLsbD i then vals.flatMap fun v => bytesOfWord ((v i).setWidth 32)
                else List.replicate 16 0))
    (fun c h =>
      let gs : List Group := h.rows.map fun d =>
        { first := d.toNat % 64, rows := d.toNat / 64 % 64, bh := d.toNat / 4096 % 65536
          bo := d.toNat / 2 ^ 28 % 65536, sbo := d.toNat / 2 ^ 44 }
      match c.matrixBad b gs (w 3) h.lanesDone with
      | some k => .consume (c.dropUsers h) k
      | none => .next (({ c with s := c.matrixStep b gs (w 3) h.data h.lanesDone } : Ctx).dropUsers h) win)

/-- MMX (R285). DEDUCED, log entry 40. -/
def execMmx (x a : Spec) (la : BitVec 4) (r : BitVec 1) (s : State) : Host.Outcome State Fault Refusal :=
  issued s (matrixOp x a la (r == 1#1) false)
/-- GMMX (R288). -/
def execGmmx (x a : Spec) (la : BitVec 4) (r : BitVec 1) (s : State) : Host.Outcome State Fault Refusal :=
  issued s (matrixOp x a la (r == 1#1) true)

/-! Requantising and packing (R289, R290). -/

/-- RQNT (R289). -/
def execRqnt (x a : Spec) (la : BitVec 4) (s : State) : Host.Outcome State Fault Refusal :=
  issued s (({ d := x, srcs := [count32 a], readsD := true, la := some la
               f := fun _ _ xs =>
                 let delta := intOf true 32 (elemOf 32 0 (xs.getD 0 0))
                 ofElems 8 4 fun e =>
                   (kd8Requant delta (BitVec.ofNat 8 (elemOf 8 e (xs.getD 1 0)))).toNat } : LaneOp).run)

/-- ⌊log₁₀ (n/d)⌋ of a positive value, searched upward from −60 (R290). -/
def floorLog10 (n d : Nat) : Int :=
  let ge := fun (k : Int) => if 0 ≤ k then d * 10 ^ k.toNat ≤ n else d ≤ n * 10 ^ (-k).toNat
  ((List.range 120).foldl (fun (acc : Int) (i : Nat) => if ge ((i : Int) - 60) then (i : Int) - 60 else acc) (-60))

/-- A C element as CPACK reads it (R290). -/
def packValue (int32 : Bool) (w : Nat) : XReal := if int32 then .ofInt (intOf true 32 w) else f32.decode w

/-- The scale of .auto: from the largest finite magnitude, 0 where there is none (R290). -/
def autoScale (vs : List XReal) : Int :=
  let m := vs.foldl (fun (acc : Nat × Nat) v => match v with
    | .fin _ n d => if acc.1 * d < n * acc.2 then (n, d) else acc
    | _ => acc) (0, 1)
  if m.1 == 0 then 0 else floorLog10 m.1 m.2

/-- The destination of CPACK is legal (R290). -/
def Ctx.packDst (c : Ctx) (x : Spec) (d : Bool) : Bool :=
  if d then c.uniRegOk x 1 1 else match x with
    | .v n => c.vecRun n 8 8
    | _ => false

/-- CPACK (R290). -/
def execCpack (x a : Spec) (la : BitVec 4) (u d : BitVec 1) (s : State) : Host.Outcome State Fault Refusal :=
  issued s fun c =>
    let toA := d == 1#1
    let k := if toA then 1 else 8
    let cw := c.uval a
    let sw := hiWord (c.uval64 a)
    let win := c.window la (specRegs x k ++ specRegs a 2)
    let off := (c.uval x).toNat
    c.heldOp
      { illegal := c.inA, noRegion := true
        operand := !c.packDst x toA || !c.uniRegOk a 2 2 || tileRsv cw || sw.toNat / 512 != 0
        guard := !toA
        regs := specRegs x k ++ specRegs a 2 }
      (fun c0 =>
        match c0.tileFault [cUse cw] with
        | some t => .error (.trap c0 t)
        | none =>
          let addr : Dword := BitVec.ofNat 64 off
          if toA && off % 32 != 0 then .error (.trap c0 { cls := .align, addr := addr })
          else if toA && c0.block.abufSize < off + 1024 then
            .error (.trap c0 { cls := .protection, cause := 1, addr := addr })
          else if toA && c0.coreState.locked 2 c0.blockId off (off + 1023) true then
            .error (.trap c0 { cls := .rangeLocked, addr := addr })
          else .ok { c0.newHold with users := [tileHandle cw], lanesDone := c0.part })
      (fun c h =>
        let p := c.tileAt (cUse cw)
        -- the rows it reads: all of them for .a and .auto, else those that take part (R280, R290)
        let rows := lanes.filter fun i => toA || u == 1#1 || h.lanesDone.getLsbD i
        match rows.findSome? fun i => c.s.poisonIn p.1 (p.2 + 128 * i) 128 with
        | some k => .consume (c.dropUsers h) k
        | none =>
        let int32 := sw.getLsbD 8
        let bs := c.tileBytes p 4096
        let v := fun (i j : Nat) => packValue int32 (fieldAt bs (128 * i + 4 * j) 4)
        let sigma := if u == 1#1 then autoScale (lanes.flatMap fun i => lanes.map fun j => v i j)
          else intOf true 8 (sw.toNat % 256)
        let e := fun (i j : Nat) => kd8Encode c.sat ((v i j).scale10 (-sigma))
        let c1 := match x with
          | .v n =>
            if toA then c else
              (List.range 8).foldl (fun (c : Ctx) q => c.setVec (n + q) h.lanesDone fun i =>
                BitVec.ofNat 32 (natOfBytes ((List.range 4).map fun r => e i (4 * q + r)))) c
          | _ =>
            let tile := lanes.flatMap fun i => lanes.map fun j => e i j
            { c with s := c.s.writeBytes (.typed c.blockId .a) off tile }
        let c2 := match a with
          | .s n => if u == 1#1 then
              c1.setUni (n + 1) (BitVec.ofNat 32 (wrapInt 8 sigma) ||| (sw &&& 0x100)) else c1
          | _ => c1
        .next (c2.dropUsers h) win)

/-! Tile moves (R291). -/

/-- CRD (R291). -/
def execCrd (x a : Spec) (la : BitVec 4) (g : BitVec 3) (s : State) : Host.Outcome State Fault Refusal :=
  issued s fun c =>
    let cw := c.uval a
    let vec := match x with
      | .v n => c.vecRun n 4 4
      | _ => false
    c.gate
      { illegal := c.inA, operand := !vec || !c.uniSrcOk a || tileRsv cw
        guard := true
        regs := specRegs x 4 ++ specRegs a 1 }
      fun c =>
        match c.tileFault [cUse cw] with
        | some t => .trap c t
        | none =>
          let p := c.tileAt (cUse cw)
          -- R287: inside any clamp span, whether read or written
          if c.tileLocked (cUse cw) true then c.fail .rangeLocked
          else match (lanes.filter fun i => c.part.getLsbD i).findSome? fun i =>
              c.s.poisonIn p.1 (p.2 + 128 * i + 16 * g.toNat) 16 with
          | some k => .consume c k
          | none =>
            let n := vecNum x
            .next ((List.range 4).foldl (fun (c : Ctx) q => c.setVec (n + q) c.part fun i =>
              BitVec.ofNat 32 (natOfBytes (c.tileBytes (p.1, p.2 + 128 * i + 16 * g.toNat + 4 * q) 4))) c)
              (c.window la (specRegs x 4 ++ specRegs a 1))

/-- CWR (R291): after settling. -/
def execCwr (x a : Spec) (la : BitVec 4) (g : BitVec 3) (s : State) : Host.Outcome State Fault Refusal :=
  issued s fun c =>
    let cw := c.uval a
    let vec := match x with
      | .v n => c.vecRun n 4 4
      | _ => false
    c.heldOp
      { illegal := c.inA, noRegion := true, operand := !vec || !c.uniSrcOk a || tileRsv cw
        guard := true
        regs := specRegs x 4 ++ specRegs a 1 }
      (fun c0 => match c0.tileFault [cUse cw] with
        | some t => .error (.trap c0 t)
        | none => if c0.tileLocked (cUse cw) true then .error (c0.fail .rangeLocked)
          else .ok { c0.newHold with lanesDone := c0.part, rows := c0.keepTile cw })
      (fun c h =>
        let p := keptTile h
        let n := vecNum x
        let s := (lanes.filter fun i => h.lanesDone.getLsbD i).foldl (fun s i =>
          s.writeBytes p.1 (p.2 + 128 * i + 16 * g.toNat)
            ((List.range 4).flatMap fun q => bytesOfWord ((h.regs.vec (n + q)).lane i))) c.s
        .next { c with s := s } (c.window la (specRegs x 4 ++ specRegs a 1)))

/-- CZERO (R291): the whole tile, after settling. -/
def execCzero (a : Spec) (la : BitVec 4) (s : State) : Host.Outcome State Fault Refusal :=
  issued s fun c =>
    let cw := c.uval a
    c.heldOp
      { illegal := c.inA, noRegion := true, operand := !c.uniSrcOk a || tileRsv cw, regs := specRegs a 1 }
      (fun c0 => match c0.tileFault [cUse cw] with
        | some t => .error (.trap c0 t)
        | none => if c0.tileLocked (cUse cw) true then .error (c0.fail .rangeLocked)
          else .ok { c0.newHold with rows := c0.keepTile cw })
      (fun c h =>
        let p := keptTile h
        .next { c with s := c.s.writeBytes p.1 p.2 (List.replicate 4096 0) } (c.window la (specRegs a 1)))

/-! Tile handles (R292 to R294). -/

/-- The lowest-numbered free entry of a core's table. -/
def Core.freeHandle (k : Core) : Option Nat :=
  (List.range Config.handles).find? fun i => !(k.handle i).alloc

/-- THAL (R292). -/
def execThal (x a : Spec) (la : BitVec 4) (b : BitVec 1) (s : State) : Host.Outcome State Fault Refusal :=
  issued s fun c =>
    let buf : Buf := if b == 1#1 then .c else .w
    let gran := if b == 1#1 then 4096 else 512
    let p := c.uval64 a
    let off := (loWord p).toNat
    let len := (hiWord p).toNat
    c.heldOp
      { noRegion := true
        operand := !c.uniRegOk x 1 1 || !c.uniRegOk a 2 2 || off % gran != 0 || len % gran != 0 || len == 0
        regs := specRegs x 1 ++ specRegs a 2 }
      (fun c0 => if c0.block.typedSize buf < off + len then
          .error (.trap c0 { cls := .protection, cause := 1, addr := BitVec.ofNat 64 off })
        else .ok c0.newHold)
      (fun c _ =>
        let win := c.window la (specRegs x 1 ++ specRegs a 2)
        match c.coreState.freeHandle with
        | none => .next (c.setSpec x 0) win
        | some i =>
          let h := BitVec.ofNat 32 (i + 1024 * (c.coreState.handle i).gen)
          let s := c.s.updHandle c.w.core i fun e =>
            { e with alloc := true, buf := buf, off := off, len := len, launch := c.launchId
                     block := c.blockId, users := 0, deferred := false, pend := false }
          .next ({ c with s := s }.setSpec x h) win)

/-- The traps of THFREE (R293). -/
def Ctx.freeFault (c : Ctx) (h : Nat) : Option Trap :=
  let e := c.coreState.handle (hIdx h)
  if !e.current h then some { cls := .handleStale, info := BitVec.ofNat 32 h }
  else if e.launch != c.launchId then some { cls := .protection, cause := 7 } else none

/-- THFREE (R191, R293). -/
def execThfree (a : Spec) (la : BitVec 4) (s : State) : Host.Outcome State Fault Refusal :=
  issued s fun c =>
    let h := (c.uval a).toNat
    c.heldOp { noRegion := true, operand := !c.uniRegOk a 1 1 || 65536 ≤ h, regs := specRegs a 1 }
      (fun c0 => match c0.freeFault h with
        | some t => .error (.trap c0 t)
        | none => .ok c0.newHold)
      (fun c _ => match c.freeFault h with
        | some t => .trap c t
        | none => .next { c with s := c.s.updHandle c.w.core (hIdx h) (·.release) } (c.window la (specRegs a 1)))

/-- THCHK (R294). -/
def execThchk (d a : Spec) (s : State) : Host.Outcome State Fault Refusal :=
  issued s fun c =>
    c.gate { operand := !c.uniRegOk d 1 1 || !c.uniRegOk a 1 1, regs := specRegs d 1 ++ specRegs a 1 } fun c =>
      let h := (c.uval a).toNat % 65536
      let e := c.coreState.handle (hIdx h)
      let own := e.alloc && e.launch == c.launchId
      let v := (if e.current h then 1 else 0) + (if e.pend then 2 else 0) + 4 +
        256 * min e.users 127 + 65536 * (e.gen % 64)
      .next (c.setSpec d (if own then BitVec.ofNat 32 v else 0)) none

end Sys2Proof.Machine
end

