-- ==== Sys2Proof/Machine/Dispatch.lean ====
section
/-!
DEFINITION. One arm per instruction: each calls the meaning of that instruction.
-/

namespace Sys2Proof.Machine

def exec (i : Instr) (s : State) : Host.Outcome State Fault Refusal :=
  match i with
  | .nop => Sys2Proof.Machine.execNop s
  | .mode imm => Sys2Proof.Machine.execMode imm s
  | .pmode n imm => Sys2Proof.Machine.execPmode n imm s
  | .loop a0 len => Sys2Proof.Machine.execLoop a0 len s
  | .loopi c len => Sys2Proof.Machine.execLoopi c len s
  | .lbrk => Sys2Proof.Machine.execLbrk s
  | .bra imm => Sys2Proof.Machine.execBra imm s
  | .bcc t imm => Sys2Proof.Machine.execBcc t imm s
  | .bmz p imm => Sys2Proof.Machine.execBmz p imm s
  | .bmnz p imm => Sys2Proof.Machine.execBmnz p imm s
  | .split p t j => Sys2Proof.Machine.execSplit p t j s
  | .join => Sys2Proof.Machine.execJoin s
  | .call imm => Sys2Proof.Machine.execCall imm s
  | .ret => Sys2Proof.Machine.execRet s
  | .jmpr a => Sys2Proof.Machine.execJmpr a s
  | .exit => Sys2Proof.Machine.execExit s
  | .cqput a => Sys2Proof.Machine.execCqput a s
  | .cqget d => Sys2Proof.Machine.execCqget d s
  | .meet => Sys2Proof.Machine.execMeet s
  | .ldi d imm => Sys2Proof.Machine.execLdi d imm s
  | .ldih d imm => Sys2Proof.Machine.execLdih d imm s
  | .mov d a => Sys2Proof.Machine.execMov d a s
  | .trap imm => Sys2Proof.Machine.execTrap imm s
  | .yield => Sys2Proof.Machine.execYield s
  | .iadd d a b => Sys2Proof.Machine.execIadd d a b s
  | .isub d a b => Sys2Proof.Machine.execIsub d a b s
  | .imul d a b => Sys2Proof.Machine.execImul d a b s
  | .imulh d a b => Sys2Proof.Machine.execImulh d a b s
  | .imad d a b => Sys2Proof.Machine.execImad d a b s
  | .imin d a b => Sys2Proof.Machine.execImin d a b s
  | .imax d a b => Sys2Proof.Machine.execImax d a b s
  | .iabs d a => Sys2Proof.Machine.execIabs d a s
  | .ineg d a => Sys2Proof.Machine.execIneg d a s
  | .and d a b => Sys2Proof.Machine.execAnd d a b s
  | .or d a b => Sys2Proof.Machine.execOr d a b s
  | .xor d a b => Sys2Proof.Machine.execXor d a b s
  | .andn d a b => Sys2Proof.Machine.execAndn d a b s
  | .shl d a b => Sys2Proof.Machine.execShl d a b s
  | .shr d a b => Sys2Proof.Machine.execShr d a b s
  | .sar d a b => Sys2Proof.Machine.execSar d a b s
  | .rol d a b => Sys2Proof.Machine.execRol d a b s
  | .popc d a => Sys2Proof.Machine.execPopc d a s
  | .clz d a => Sys2Proof.Machine.execClz d a s
  | .ctz d a => Sys2Proof.Machine.execCtz d a s
  | .brev d a => Sys2Proof.Machine.execBrev d a s
  | .bfx d a b => Sys2Proof.Machine.execBfx d a b s
  | .bfi d a b => Sys2Proof.Machine.execBfi d a b s
  | .icmp c p a b => Sys2Proof.Machine.execIcmp c p a b s
  | .sel d a b => Sys2Proof.Machine.execSel d a b s
  | .aadd d a b => Sys2Proof.Machine.execAadd d a b s
  | .amad d a b => Sys2Proof.Machine.execAmad d a b s
  | .tidx d a n => Sys2Proof.Machine.execTidx d a n s
  | .frame a => Sys2Proof.Machine.execFrame a s
  | .unframe a => Sys2Proof.Machine.execUnframe a s
  | .fadd d a b => Sys2Proof.Machine.execFadd d a b s
  | .fsub d a b => Sys2Proof.Machine.execFsub d a b s
  | .fmul d a b => Sys2Proof.Machine.execFmul d a b s
  | .ffma d a b => Sys2Proof.Machine.execFfma d a b s
  | .ffms d a b => Sys2Proof.Machine.execFfms d a b s
  | .fmin d a b => Sys2Proof.Machine.execFmin d a b s
  | .fmax d a b => Sys2Proof.Machine.execFmax d a b s
  | .fabs d a => Sys2Proof.Machine.execFabs d a s
  | .fneg d a => Sys2Proof.Machine.execFneg d a s
  | .fcmp c p a b => Sys2Proof.Machine.execFcmp c p a b s
  | .frnd d a => Sys2Proof.Machine.execFrnd d a s
  | .fcls d a => Sys2Proof.Machine.execFcls d a s
  | .cvt d a e a3 => Sys2Proof.Machine.execCvt d a e a3 s
  | .pack2 d a b => Sys2Proof.Machine.execPack2 d a b s
  | .unpk d a => Sys2Proof.Machine.execUnpk d a s
  | .dot4 d a b => Sys2Proof.Machine.execDot4 d a b s
  | .shfl d a b => Sys2Proof.Machine.execShfl d a b s
  | .shflx d a b => Sys2Proof.Machine.execShflx d a b s
  | .shflu d a b => Sys2Proof.Machine.execShflu d a b s
  | .shfld d a b => Sys2Proof.Machine.execShfld d a b s
  | .rdlane d a b => Sys2Proof.Machine.execRdlane d a b s
  | .wrlane d a b => Sys2Proof.Machine.execWrlane d a b s
  | .vany d p => Sys2Proof.Machine.execVany d p s
  | .vall d p => Sys2Proof.Machine.execVall d p s
  | .vbal d p => Sys2Proof.Machine.execVbal d p s
  | .redw d a o => Sys2Proof.Machine.execRedw d a o s
  | .scanw d a e o => Sys2Proof.Machine.execScanw d a e o s
  | .actm d => Sys2Proof.Machine.execActm d s
  | .qswapx d a => Sys2Proof.Machine.execQswapx d a s
  | .qswapy d a => Sys2Proof.Machine.execQswapy d a s
  | .qswapd d a => Sys2Proof.Machine.execQswapd d a s
  | .qbcst d a q => Sys2Proof.Machine.execQbcst d a q s
  | .qred d a o => Sys2Proof.Machine.execQred d a o s
  | .sysr d a => Sys2Proof.Machine.execSysr d a s
  | .sysw a b => Sys2Proof.Machine.execSysw a b s
  | .time d t => Sys2Proof.Machine.execTime d t s
  | .tarm a b => Sys2Proof.Machine.execTarm a b s
  | .twait d a => Sys2Proof.Machine.execTwait d a s
  | .grow n => Sys2Proof.Machine.execGrow n s
  | .shrink n => Sys2Proof.Machine.execShrink n s
  | .idem => Sys2Proof.Machine.execIdem s
  | .idemx => Sys2Proof.Machine.execIdemx s
  | .tret => Sys2Proof.Machine.execTret s
  | .bkpt => Sys2Proof.Machine.execBkpt s
  | .mark a => Sys2Proof.Machine.execMark a s
  | .pmrd d a => Sys2Proof.Machine.execPmrd d a s
  | .succ a b => Sys2Proof.Machine.execSucc a b s
  | .thchk d a => Sys2Proof.Machine.execThchk d a s
  | .cstat d => Sys2Proof.Machine.execCstat d s
  | .ldp x n la a3 => Sys2Proof.Machine.execLdp x n la a3 s
  | .stp x n la a3 => Sys2Proof.Machine.execStp x n la a3 s
  | .lds x a la g a4 => Sys2Proof.Machine.execLds x a la g a4 s
  | .sts x a la g a4 => Sys2Proof.Machine.execSts x a la g a4 s
  | .ats x a la o => Sys2Proof.Machine.execAts x a la o s
  | .ldt x a la u a4 => Sys2Proof.Machine.execLdt x a la u a4 s
  | .stt x a la u a4 => Sys2Proof.Machine.execStt x a la u a4 s
  | .ldd x a la k a4 => Sys2Proof.Machine.execLdd x a la k a4 s
  | .std x a la k a4 => Sys2Proof.Machine.execStd x a la k a4 s
  | .lddw x a la k => Sys2Proof.Machine.execLddw x a la k s
  | .stdw x a la k => Sys2Proof.Machine.execStdw x a la k s
  | .sldd x a la k a4 => Sys2Proof.Machine.execSldd x a la k a4 s
  | .sstd x a la k a4 => Sys2Proof.Machine.execSstd x a la k a4 s
  | .atd x a la o => Sys2Proof.Machine.execAtd x a la o s
  | .pfd a la k h => Sys2Proof.Machine.execPfd a la k h s
  | .ldx x a la a3 => Sys2Proof.Machine.execLdx x a la a3 s
  | .stx x a la a3 => Sys2Proof.Machine.execStx x a la a3 s
  | .atx x a la o => Sys2Proof.Machine.execAtx x a la o s
  | .ldh x a la k a4 => Sys2Proof.Machine.execLdh x a la k a4 s
  | .sth x a la k a4 => Sys2Proof.Machine.execSth x a la k a4 s
  | .ath x a la o => Sys2Proof.Machine.execAth x a la o s
  | .cmt la v => Sys2Proof.Machine.execCmt la v s
  | .abt x la v => Sys2Proof.Machine.execAbt x la v s
  | .acq la v => Sys2Proof.Machine.execAcq la v s
  | .sync la v => Sys2Proof.Machine.execSync la v s
  | .binit a la r k u => Sys2Proof.Machine.execBinit a la r k u s
  | .barv x a la => Sys2Proof.Machine.execBarv x a la s
  | .barw x a la g => Sys2Proof.Machine.execBarw x a la g s
  | .bwait x a la g => Sys2Proof.Machine.execBwait x a la g s
  | .brema x a la g => Sys2Proof.Machine.execBrema x a la g s
  | .aexp x a la => Sys2Proof.Machine.execAexp x a la s
  | .await x a la g => Sys2Proof.Machine.execAwait x a la g s
  | .arel a la => Sys2Proof.Machine.execArel a la s
  | .acpy a la t => Sys2Proof.Machine.execAcpy a la t s
  | .cwait x a la => Sys2Proof.Machine.execCwait x a la s
  | .cpoll x a la => Sys2Proof.Machine.execCpoll x a la s
  | .cpollE x a la => Sys2Proof.Machine.execCpollE x a la s
  | .sstart x a la => Sys2Proof.Machine.execSstart x a la s
  | .sstop x la => Sys2Proof.Machine.execSstop x la s
  | .sstat x a la => Sys2Proof.Machine.execSstat x a la s
  | .mmx x a la r => Sys2Proof.Machine.execMmx x a la r s
  | .gmmx x a la r => Sys2Proof.Machine.execGmmx x a la r s
  | .rqnt x a la => Sys2Proof.Machine.execRqnt x a la s
  | .cpack x a la u d => Sys2Proof.Machine.execCpack x a la u d s
  | .crd x a la g => Sys2Proof.Machine.execCrd x a la g s
  | .cwr x a la g => Sys2Proof.Machine.execCwr x a la g s
  | .czero a la => Sys2Proof.Machine.execCzero a la s
  | .thal x a la b => Sys2Proof.Machine.execThal x a la b s
  | .thfree a la => Sys2Proof.Machine.execThfree a la s
  | .idiv x a la => Sys2Proof.Machine.execIdiv x a la s
  | .irem x a la => Sys2Proof.Machine.execIrem x a la s
  | .fdiv x a la => Sys2Proof.Machine.execFdiv x a la s
  | .frcp x a la => Sys2Proof.Machine.execFrcp x a la s
  | .frsq x a la => Sys2Proof.Machine.execFrsq x a la s
  | .fsqrt x a la => Sys2Proof.Machine.execFsqrt x a la s
  | .fexp2 x a la => Sys2Proof.Machine.execFexp2 x a la s
  | .flog2 x a la => Sys2Proof.Machine.execFlog2 x a la s
  | .fsin x a la => Sys2Proof.Machine.execFsin x a la s
  | .fcos x a la => Sys2Proof.Machine.execFcos x a la s
  | .ftanh x a la => Sys2Proof.Machine.execFtanh x a la s
  | .shld a la n => Sys2Proof.Machine.execShld a la n s
  | .recv x a la b q => Sys2Proof.Machine.execRecv x a la b q s
  | .msend x a la => Sys2Proof.Machine.execMsend x a la s
  | .spawn x a la => Sys2Proof.Machine.execSpawn x a la s
  | .waitv x a la c => Sys2Proof.Machine.execWaitv x a la c s
  | .waitvPoll x a la c => Sys2Proof.Machine.execWaitvPoll x a la c s
  | .xloop k len count => Sys2Proof.Machine.execXloop k len count s
  | .xstride k lo hi ds => Sys2Proof.Machine.execXstride k lo hi ds s
  | .xfer slot nc dp soff nb nr sp => Sys2Proof.Machine.execXfer slot nc dp soff nb nr sp s
  | .xgather slot nc dp ioff nb nr ip => Sys2Proof.Machine.execXgather slot nc dp ioff nb nr ip s
  | .xarrive slot units => Sys2Proof.Machine.execXarrive slot units s
  | .xslot slot kind blk off cell len => Sys2Proof.Machine.execXslot slot kind blk off cell len s
  | .xjump off => Sys2Proof.Machine.execXjump off s
  | .xhalt => Sys2Proof.Machine.execXhalt s
  | .xfence => Sys2Proof.Machine.execXfence s
  | .xscale slot nc soff doff nb => Sys2Proof.Machine.execXscale slot nc soff doff nb s
  | .xwait cond off value mask => Sys2Proof.Machine.execXwait cond off value mask s
  | .xflag off value => Sys2Proof.Machine.execXflag off value s
  | .loadReturn wave load => Sys2Proof.Machine.execLoadReturn wave load s
  | .settleWindowExpiry wave => Sys2Proof.Machine.execSettleWindowExpiry wave s
  | .translationFill die req => Sys2Proof.Machine.execTranslationFill die req s
  | .tlbInvalidation fn asid lo hi => Sys2Proof.Machine.execTlbInvalidation fn asid lo hi s
  | .growGrant wave => Sys2Proof.Machine.execGrowGrant wave s
  | .copyComplete core idx => Sys2Proof.Machine.execCopyComplete core idx s
  | .hostWake fn value => Sys2Proof.Machine.execHostWake fn value s
  | .packetAccept queue => Sys2Proof.Machine.execPacketAccept queue s
  | .blockPlace block => Sys2Proof.Machine.execBlockPlace block s
  | .spinPreemption block => Sys2Proof.Machine.execSpinPreemption block s
  | .rotationRound => Sys2Proof.Machine.execRotationRound s
  | .slotGrant queue => Sys2Proof.Machine.execSlotGrant queue s
  | .sliceEnd => Sys2Proof.Machine.execSliceEnd s
  | .preemption queue save => Sys2Proof.Machine.execPreemption queue save s
  | .resume fn asid => Sys2Proof.Machine.execResume fn asid s
  | .debuggerStop fn asid => Sys2Proof.Machine.execDebuggerStop fn asid s
  | .singleStep wave slice entry => Sys2Proof.Machine.execSingleStep wave slice entry s
  | .migrationExport fn asid => Sys2Proof.Machine.execMigrationExport fn asid s
  | .migrationImport fn asid gap => Sys2Proof.Machine.execMigrationImport fn asid gap s
  | .timerFire fn asid n => Sys2Proof.Machine.execTimerFire fn asid n s
  | .messageArrival fn q src tag rby da payload => Sys2Proof.Machine.execMessageArrival fn q src tag rby da payload s
  | .messageDeliverable fn asid q => Sys2Proof.Machine.execMessageDeliverable fn asid q s
  | .patienceLow fn asid contract => Sys2Proof.Machine.execPatienceLow fn asid contract s
  | .deferReceive fn asid tag ext => Sys2Proof.Machine.execDeferReceive fn asid tag ext s
  | .strikeReport core => Sys2Proof.Machine.execStrikeReport core s
  | .uncoreStrike die => Sys2Proof.Machine.execUncoreStrike die s
  | .replayCheck core quadrant entry recomputed => Sys2Proof.Machine.execReplayCheck core quadrant entry recomputed s
  | .screenCompare screen => Sys2Proof.Machine.execScreenCompare screen s
  | .eccError place bank col row corrected => Sys2Proof.Machine.execEccError place bank col row corrected s
  | .correctedSummary => Sys2Proof.Machine.execCorrectedSummary s
  | .traceSample fn asid core => Sys2Proof.Machine.execTraceSample fn asid core s
  | .lcFlush fn asid => Sys2Proof.Machine.execLcFlush fn asid s
  | .selfTestStart core => Sys2Proof.Machine.execSelfTestStart core s
  | .selfTestRun pass => Sys2Proof.Machine.execSelfTestRun pass s
  | .dumpStart => Sys2Proof.Machine.execDumpStart s
  | .hinv value => Sys2Proof.Machine.execHinv value s
  | .vfsel value => Sys2Proof.Machine.execVfsel value s
  | .vfEnable vf => Sys2Proof.Machine.execVfEnable vf s
  | .vfDisable vf => Sys2Proof.Machine.execVfDisable vf s
  | .tear vf => Sys2Proof.Machine.execTear vf s
  | .teardownComplete vf => Sys2Proof.Machine.execTeardownComplete vf s
  | .counterClaim fn asid value => Sys2Proof.Machine.execCounterClaim fn asid value s
  | .hypervisorClaim hcl => Sys2Proof.Machine.execHypervisorClaim hcl s
  | .crst value => Sys2Proof.Machine.execCrst value s
  | .msggo fn q => Sys2Proof.Machine.execMsggo fn q s
  | .registerWrite target value => Sys2Proof.Machine.execRegisterWrite target value s
  | .peerRequest fn node off ask => Sys2Proof.Machine.execPeerRequest fn node off ask s
  | .peerReply req answer => Sys2Proof.Machine.execPeerReply req answer s
  | .reservationLapse req => Sys2Proof.Machine.execReservationLapse req s
  | .flitReceive port intact lane symbols => Sys2Proof.Machine.execFlitReceive port intact lane symbols s
  | .keyRenewal port receive => Sys2Proof.Machine.execKeyRenewal port receive s
  | .moduleReset => Sys2Proof.Machine.execModuleReset s
  | .recoveryProgram => Sys2Proof.Machine.execRecoveryProgram s
  | .recoveryProgramDone result => Sys2Proof.Machine.execRecoveryProgramDone result s
  | .recoveryReset => Sys2Proof.Machine.execRecoveryReset s
  | .getVersion fn => Sys2Proof.Machine.execGetVersion fn s
  | .getCapabilities fn => Sys2Proof.Machine.execGetCapabilities fn s
  | .negotiateAlgorithms fn => Sys2Proof.Machine.execNegotiateAlgorithms fn s
  | .getDigests fn => Sys2Proof.Machine.execGetDigests fn s
  | .getCertificate fn slot => Sys2Proof.Machine.execGetCertificate fn slot s
  | .getMeasurements fn index nonce => Sys2Proof.Machine.execGetMeasurements fn index nonce s
  | .keyExchange fn => Sys2Proof.Machine.execKeyExchange fn s
  | .finish fn => Sys2Proof.Machine.execFinish fn s
  | .endSession fn => Sys2Proof.Machine.execEndSession fn s
  | .extend fn payload => Sys2Proof.Machine.execExtend fn payload s
  | .installDumpKey fn payload => Sys2Proof.Machine.execInstallDumpKey fn payload s
  | .clearDumpKey fn payload => Sys2Proof.Machine.execClearDumpKey fn payload s
  | .svminRaise version signed => Sys2Proof.Machine.execSvminRaise version signed s
  | .throttle down => Sys2Proof.Machine.execThrottle down s
  | .thermalTrip => Sys2Proof.Machine.execThermalTrip s
  | .unassignedOpcode word => Sys2Proof.Machine.execUnassignedOpcode word s
  | .fetchFault stop => Sys2Proof.Machine.execFetchFault stop s
  | .unassignedCommandCode word => Sys2Proof.Machine.execUnassignedCommandCode word s
  | .xwaitPoll cond off value mask => Sys2Proof.Machine.execXwaitPoll cond off value mask s
  | .faultBufferRetry die => Sys2Proof.Machine.execFaultBufferRetry die s
  | .hostEndsLaunch launch => Sys2Proof.Machine.execHostEndsLaunch launch s
  | .screenAbandon screen => Sys2Proof.Machine.execScreenAbandon screen s
  | .hostCoherenceInvalidation sector bytes => Sys2Proof.Machine.execHostCoherenceInvalidation sector bytes s
  | .eviction core cluster sector => Sys2Proof.Machine.execEviction core cluster sector s

end Sys2Proof.Machine
end

