-- ==== Sys2Proof/Machine/Issue.lean ====
section
/-!
DEFINITION. One fragment issues, or one stream context executes a command: what may issue, the traps due at an
instruction boundary, the fetch, the decoding, and the accounts (R95, R99, R118, R296, R305, R332, R403).
-/

namespace Sys2Proof.Machine

/-! What may issue. -/

/-- A handler of the wave lets the fragment issue: there is none, or it is the fragment's own (R332). -/
def Ctx.handlerLets (c : Ctx) : Bool :=
  let h := fun (sl : Slice) (st : Stream) => match st.handler with
    | none => true
    | some h => sl == c.r.slice && h.entry == c.r.entry
  h .a (c.w.stream .a) && h .c c.w.c

/-- The fragment waits for something other than itself: its instruction is not tried again until that has come
(R39, R55, R180, R200, R306). -/
def Frag.asleep (f : Frag) : Bool :=
  match f.park with
  | some (.join _) => true
  | some (.grow _) => true
  | some (.xlate _) => true
  | some (.cell _ _ woken _) => !woken
  | some (.timer _ woken) => !woken
  | _ => false

/-- A trap that is due at an instruction boundary may be taken: the fragment has no instruction under way
beyond one that waits and would be executed again. -/
def Frag.atBoundary (f : Frag) : Bool :=
  match f.park with
  | some (.join _) => false
  | some (.grow _) => false
  | some (.xlate _) => false
  | some .waitv => (f.hold.map (·.settled)).getD true
  | some (.recv _ _) => (f.hold.map (·.settled)).getD true
  | some (.cell _ _ _ _) => (f.hold.map fun h => h.settled && !h.arrived).getD true
  | _ => f.hold.isNone

/-- A trap is due in the stream at this fragment's boundary: TIMER, then WATCH (R305, R347, R403). -/
def Ctx.pending (c : Ctx) : Option (Trap × Ctx) :=
  if !c.f.atBoundary then none
  else match c.st.timers with
    | (n, low) :: t =>
      some ({ cls := .timer, cause := n, addr := low.setWidth 64 }, { c with st := { c.st with timers := t } })
    | [] => match c.f.watch with
      | some (u, a) => some ({ cls := .watch, cause := u, addr := a }, { c with f := { c.f with watch := none } })
      | none => none

/-- A store of another fragment of the stream that finds no room in the WWB, or a queue that another fragment finds full,
unfilled or empty, stalls the stream; a handler goes on, for the other is then stopped and does not try again (R46, R49,
R207, R332). -/
def Ctx.fullStalls (c : Ctx) : Bool :=
  c.st.handler.isNone && c.st.live.any fun x =>
    x.1 != c.r.entry && (x.2.park == some .full || x.2.park == some .queue || x.2.park == some .cqget)

/-- An access of the wave aimed at a gang member that has not started stalls the wave, but for such accesses
themselves (R60); a handler goes on, for what it stopped does not try again (R332). -/
def Ctx.memberStalls (c : Ctx) : Bool :=
  (c.w.stream .a).handler.isNone && c.w.c.handler.isNone && c.f.park != some .member &&
    c.w.frags.any fun f => f.park == some .member

/-- A strong store of the wave stands in an egress queue: only a strong access, a plain load or an instruction that
touches no memory may come before it, and none that names a queue (R220, R226, R240). DEDUCED, log entry 79. -/
def Ctx.egressHolds (c : Ctx) (w : Word) : Bool :=
  let op := (w.extractLsb' 24 8).toNat
  let queue := fun (b : BitVec 8) => 0xC8 ≤ b.toNat && b.toNat ≤ 0xCE
  let access := match decodeWord w with
    | .ok (.sldd ..) | .ok (.sstd ..) => true
    | .ok (.ldp ..) | .ok (.lds ..) | .ok (.ldt ..) | .ok (.ldd ..) | .ok (.lddw ..) | .ok (.ldh ..) | .ok (.pfd ..) => true
    | _ => false
  let control := 1 ≤ op && op ≤ 0x0F
  let arith := (0x14 ≤ op && op ≤ 0x16) || op == 0x18 || (0x20 ≤ op && op ≤ 0xA0) || (0xF0 ≤ op && op ≤ 0xFA)
  let names := !control && (queue (w.extractLsb' 16 8) || queue (w.extractLsb' 8 8) || queue (w.extractLsb' 0 8))
  (c.s.egress.any fun e => e.wave == c.r.wave) && ((!access && !arith && !control) || names)

/-- The fragment may issue: its block is resident and not stopping, its queue is mapped and neither being stopped
nor drained of a discardable block, no single step is under way but its own, no handler of the wave and no store of its
stream stops it; an instruction of its that is under way goes on through all of that (R322, R332, R336, R343, R346). -/
def Ctx.mayIssue (c : Ctx) : Bool :=
  let k := c.block
  let q := c.s.queue c.launch.queue
  let going := c.f.hold.isSome && !c.f.atBoundary
  k.phase == .resident && !c.w.retired && (c.launch.phase == .running || (k.shadow && c.launch.phase != .ending)) &&
  (going || (q.slot.isSome && !q.preempted && !k.stopping && !(q.draining && c.s.discardable c.blockId) &&
    (!c.context.stepping || c.context.released == some c.r) && c.handlerLets && !c.fullStalls && !c.memberStalls)) &&
  (!c.f.asleep || c.pending.isSome)

/-! The fetch (R95, R99). -/

/-- What a fetch gives. -/
inductive Fetched
  | word (w : Word)
  | stop (f : FetchStop)

/-- Fetch the word at the fragment's PC, at the privilege of the code that runs. A fetch counts as a device-space access,
so that a host leaf gives PROTECTION with cause 4 (R99, R200); the spec does not say so. DESIGN CHOICE, log entry 85. -/
def Ctx.fetch (c : Ctx) : Fetched :=
  match c.s.translate (some c.w.core) c.fn c.asid { fetch := true, priv := c.priv } c.f.pc.toNat with
  | .miss => .stop .miss
  | .fault cause => .stop (.protection cause)
  | .ok pa => if c.s.poisoned .dev pa then .stop .poison else .word (wordOfBytes (c.s.readBytes .dev pa 4))

/-- What a wave has left in an egress queue lets the fragment's next instruction issue. -/
def Ctx.egressLets (c : Ctx) : Bool :=
  c.s.egress.isEmpty || c.f.hold.isSome || match c.fetch with
    | .word w => !c.egressHolds w
    | .stop _ => !c.s.egress.any fun e => e.wave == c.r.wave

/-- The word that an instruction under way issued with, or the word at the PC. -/
def Ctx.wordAt (c : Ctx) : Fetched :=
  match c.f.hold with
  | some h => .word h.word
  | none => c.fetch

/-- What the fragment executes for a word: its instruction, or what stands in its place; a WAITV that has been
polled is polled again. -/
def Ctx.instr (c : Ctx) (w : Word) : Instr :=
  match decodeWord w with
  | .ok (.waitv x a la k) => if c.f.park == some .waitv then .waitvPoll x a la k else .waitv x a la k
  | .ok i => i
  | .error _ => .unassignedOpcode w

/-- A word with a bad fixed operand raises ILLEGAL_OPERAND; CQPUT and CQGET are NOPs in a coupled launch whatever
they name (R161 to R163). -/
def Ctx.operandError (c : Ctx) (w : Word) : Option Instr :=
  match decodeWord w with
  | .error .operand =>
    let op := w.extractLsb' 24 8
    if !c.w.decoupled && (op == 0x11#8 || op == 0x12#8) then some .nop else none
  | _ => some (c.instr w)

/-! Issuing. -/

/-- A shadow abandons its screen where it would execute what no screen can repeat (R395). -/
def Ctx.shadowStops (c : Ctx) (i : Instr) : Bool := c.block.shadow && unscreens i

/-- The word stays with an instruction that has come to be held. -/
def State.keepWord (s : State) (c : Ctx) (w : Word) : State :=
  if c.f.hold.isSome then s
  else s.updWave c.r.wave fun x =>
    x.setStream c.r.slice (match (x.stream c.r.slice).frag c.r.entry with
      | some f => (x.stream c.r.slice).setFrag c.r.entry (some { f with hold := f.hold.map fun h => { h with word := w } })
      | none => x.stream c.r.slice)

/-- What follows the execution of an instruction: the accounts, and what rollback needs. -/
def Ctx.after (c : Ctx) (i : Instr) (w : Word) (t : State) : State :=
  (({ t with issuer := .none }.account c i).keepWord c w).keepSnapshot c.s c.r.wave

/-- The issue that an execution was: none where a trap that was due was taken, a held instruction went on, or the
fragment stands where it stood. -/
def Ctx.issues (c : Ctx) (t : State) : List Issue :=
  if c.pending.isSome || c.f.hold.isSome || c.stands (Ctx.of? t c.r) then []
  else [{ ref := c.r, core := c.w.core, quadrant := c.w.slot / 8, pc := c.f.pc, classes := c.classes }]

/-- An outcome with something done to its next state. -/
def onNext (f : State → State) : Host.Outcome State Fault Refusal → Host.Outcome State Fault Refusal
  | .next s => .next (f s)
  | .fault r => .fault r
  | .refused r => .refused r

/-- Execute an instruction for a fragment. -/
def Ctx.perform (c : Ctx) (i : Instr) (w : Word) : Host.Outcome State Fault Refusal :=
  if c.shadowStops i then
    .next (match c.block.screen with
      | some id => c.s.abandonScreen id
      | none => c.s)
  else onNext (c.after i w) (exec i { c.s with issuer := .frag c.r })

/-- Take the trap that is due at the boundary, once the loads of the stream are back (R332). -/
def Ctx.takePending (c : Ctx) (t : Trap) (c' : Ctx) : State :=
  if c.trapWaits then ({ c with f := { c.f with park := some .stall } }).out
  else ({ c' with f := { c'.f with hold := none, park := none } }).takeTrap t

/-- The fragment that may issue, if it may. -/
def State.issuing (s : State) (r : FragRef) : Option Ctx := (Ctx.of? s r).bind fun c => if c.mayIssue && c.egressLets then some c else none

/-- What a fragment that may issue does, the time that it takes apart. -/
def Ctx.go (c : Ctx) : Host.Outcome State Fault Refusal :=
  match c.pending with
  | some (t, c') => .next ((c.takePending t c').keepSnapshot c.s c.r.wave)
  | none => match c.wordAt with
    | .stop f => c.perform (.fetchFault f) 0
    | .word w =>
      let c := if c.f.hold.isSome then c
        else { c with s := c.s.fillTlb (some c.w.core) c.fn c.asid c.f.pc.toNat }
      match c.operandError w with
      | some i => c.perform i w
      | none => onNext (c.after (.unassignedOpcode w) w) (badOperand { c.s with issuer := .frag c.r })

/-- A fragment issues its next instruction, in one cycle; nothing happens where it may not. -/
def State.issue (s : State) (r : FragRef) : Host.Outcome State Fault Refusal :=
  match s.issuing r with
  | none => .next s
  | some c => onNext (fun t => t.tick 1 (c.issues t)) c.go

/-! Commands (R184, R185, R295, R296). -/

/-- A stream context may execute a command. -/
def XCtx.mayRun (x : XCtx) : Bool :=
  x.xlate.isNone && !x.saved && match x.phase with
    | .faulted _ => false
    | _ => true

/-- The 16 bytes of the command at a context's PC, read as the launch reads them, at d. -/
def State.commandBytes (s : State) (x : XCtx) : Except CmdAct (List Byte) :=
  if Config.addressTop ≤ x.pc then .error (.fault s 6 x.pc)
  else match s.engineRead x x.pc with
    | (.miss, _) => .error (s.engineMiss x x.pc false)
    | (.fault _, _) => .error (.fault s 3 x.pc)
    | (.ok pa, p) => .ok (s.readBytes p pa 16)

/-- The command that 16 bytes hold; a waiting XWAIT is polled again. -/
def XCtx.command (x : XCtx) (bs : List Byte) : Instr :=
  match decodeCommandBytes bs with
  | some (.xwait k off v m) => if x.phase == .waiting then .xwaitPoll k off v m else .xwait k off v m
  | some i => i
  | none => .unassignedCommandCode (wordOfBytes bs)

/-- The stream context that may execute a command, if it may. -/
def State.commanding (s : State) (e k : Nat) : Option XCtx := (s.xctx? e k).bind fun x => if x.mayRun then some x else none

/-- What a stream context that may go on does, the time that it takes apart. -/
def XCtx.go (x : XCtx) (s : State) : Host.Outcome State Fault Refusal :=
  let fin := fun (t : State) => { t with issuer := .none }
  match s.commandBytes x with
  | .error a => .next (fin (a.state x.engine x.k))
  | .ok bs => onNext fin (exec (x.command bs) { s with issuer := .engine x.engine x.k })

/-- A stream context executes its next command, in one cycle; nothing happens where it may not. -/
def State.command (s : State) (e k : Nat) : Host.Outcome State Fault Refusal :=
  match s.commanding e k with
  | none => .next s
  | some x => onNext (fun t => t.tick 1 []) (x.go s)

/-! One cycle of the module (R330). -/

/-- Stream contexts go on, one after another. -/
def State.commandAll (s : State) : List (Nat × Nat) → Host.Outcome State Fault Refusal
  | [] => .next s
  | p :: t => match s.commanding p.1 p.2 with
    | none => s.commandAll t
    | some x => match x.go s with
      | .next s' => s'.commandAll t
      | o => o

/-- Fragments issue and stream contexts go on, all in one cycle, each on the state that those before it have left;
`iss` are the issues so far. -/
def State.oneCycle (s : State) (cs : List (Nat × Nat)) (iss : List Issue) :
    List FragRef → Host.Outcome State Fault Refusal
  | [] => onNext (fun t => t.tick 1 iss) (s.commandAll cs)
  | r :: t => match s.issuing r with
    | none => s.oneCycle cs iss t
    | some c => match c.go with
      | .next s' => s'.oneCycle cs (iss ++ c.issues s') t
      | o => o

end Sys2Proof.Machine
end

