-- ==== Sys2Proof/Machine/Policy.lean ====
section
/-!
DEFINITION. The default policy: what a step does when the surroundings have ordered nothing. Whatever is due
happens first; then a cycle passes, in which the fragments that R330 chooses issue and every stream context that can go on does;
DESIGN CHOICE, log entry 1.
-/

namespace Sys2Proof.Machine

/-- A list of numbers is before another in lexicographic order. -/
def lexLt : List Nat → List Nat → Bool
  | [], [] => false
  | [], _ => true
  | _, [] => false
  | x :: xs, y :: ys => x < y || (x == y && lexLt xs ys)

/-- The first element with the least key. -/
def leastBy {α : Type} (key : α → List Nat) : List α → Option α
  | [] => none
  | x :: t => match leastBy key t with
    | none => some x
    | some y => if lexLt (key y) (key x) then some y else some x

/-- Numbers below `n` that satisfy `p`, the first. -/
def firstIdx (n : Nat) (p : Nat → Bool) : Option Nat := (List.range n).find? p

/-! Due events. -/

/-- A wave whose stores, held instructions, retirement or block is due (R207, R215). -/
def State.settleDue (s : State) : Option Action :=
  (firstIdx s.waves.length fun w =>
    let l := s.launch (s.launchOf w)
    if l.phase == .ending then !l.ending.stopped && l.trapSettled s.cycle
    else if (s.wave w).retired then (s.wave w).exitedAt.isSome && s.sweepReady (s.blockOf w) else ((s.settleWave w).wave w != s.wave w ||
      s.mayFinish (s.blockOf w))).map
    fun w => .event (.settleWindowExpiry w)

/-- The oldest load of a wave returns (R46). -/
def State.loadDue (s : State) : Option Action :=
  (List.range s.waves.length).findSome? fun w =>
    ((s.wave w).loads.find? (s.mayReturn w)).map fun l => .event (.loadReturn w l.id)

/-- A copy that can go on. -/
def State.copyDue (s : State) : Option Action :=
  s.cores.findSome? fun k => (k.copies.find? fun c =>
    c.park.isNone && ((s.copyEvent k.id c.idx).core k.id).copies != k.copies).map fun c =>
      .event (.copyComplete k.id c.idx)

/-- A timer whose deadline has come (R305). -/
def State.timerDue (s : State) : Option Action :=
  s.contexts.findSome? fun c =>
    if !c.running then none
    else ((List.finRange 4).find? fun n =>
      let t := c.timers.getD n {}
      t.armed && t.deadline.toNat ≤ c.vns).map fun n => .event (.timerFire c.fn c.asid n)

/-- A contract whose patience runs low (R356), in a context that has not been exported (R359). -/
def State.patienceDue (s : State) : Option Action :=
  s.contexts.findSome? fun c => if c.migrated then none else (firstIdx c.contracts.length fun i =>
    match c.contracts[i]? with
    | some k => k.low s.time && (k.da || !k.alarmed)
    | none => false).map fun i => .event (.patienceLow c.fn c.asid i)

/-- A reservation that lapses (R378). -/
def State.lapseDue (s : State) : Option Action :=
  (firstIdx s.peers.length fun i => match s.peers[i]? with
    | some p => (p.st == .pending || p.st == .orphan) &&
        p.since + Config.reservationLife * Config.unitsPerTick ≤ s.time
    | none => false).map fun i => .event (.reservationLapse i)

/-- A teardown whose quarantine is over (R381). -/
def State.teardownDue (s : State) : Option Action :=
  s.functions.findSome? fun f => match f.tear with
    | some t => if s.quarantineOver f.fn t then some (.event (.teardownComplete f.fn)) else none
    | none => none

/-- A queue that is being stopped and has settled (R336). -/
def State.stopDue (s : State) : Option Action :=
  s.queues.findSome? fun q =>
    if q.slot.isNone then none
    else if q.preempted then (if s.queueQuiet q.id then some (.event (.preemption q.id true)) else none)
    else if q.draining && ((s.blocksIn q.id .resident).isEmpty ||
        (s.blocksIn q.id .resident).any fun b => s.discardable b && s.blockQuiet b)
      then some (.event (.preemption q.id false))
    else none

/-- A single step whose instruction has completed and settled (R346); a JOIN has, once its fragment has come to it. -/
def State.stepDue (s : State) : Option Action :=
  let done := fun (c : Context) => match (c.released.bind s.frag).map (·.park) with
    | some (some (.join _)) => true
    | some _ => false
    | none => true
  (s.contexts.find? fun c => c.stepping && done c && (s.mappedOf c.fn c.asid).all s.queueSettled).map fun c =>
    .event (.debuggerStop c.fn c.asid)

/-- The length of a rotation round in real ticks: the shortest slice of the time-sliced functions, else 1,000 (R323). -/
def State.roundTicks (s : State) : Nat :=
  match (s.enabled.filter Function.ts).map Function.sliceTicks with
  | [] => 1000
  | n :: t => t.foldl min n

/-- A rotation round begins, or a turn ends (R323, R369). -/
def State.roundDue (s : State) : Option Action :=
  let rs := s.slicedRunnable
  let kept := match s.sched.turnFn with
    | some fn => rs.contains fn && s.sched.turnStart == s.time
    | none => false
  if s.turnOver && !rs.isEmpty && !kept then some (.event .sliceEnd)
  else if s.sched.roundStart + max 1 s.roundTicks * Config.unitsPerTick ≤ s.time && !s.queues.isEmpty
    then some (.event .rotationRound)
  else none

/-- A free slot goes to a queue that waits for one (R323). -/
def State.slotDue (s : State) : Option Action :=
  s.queueOwners.findSome? fun fn => match s.nextQueue fn, s.freeSlot fn with
    | some q, some _ => some (.event (.slotGrant q))
    | _, _ => none

/-- A packet core has a packet to accept or reject (R325). -/
def State.packetDue (s : State) : Option Action :=
  (s.queues.find? fun q =>
    q.slot.isSome && !q.preempted && !q.draining && q.xlate.isNone && s.hasPacket q.id && s.unheld q.id &&
      !((s.context? q.fn q.asid).map fun c => c.ended && !c.torn).getD false).map fun q => .event (.packetAccept q.id)

/-- A GROW that can be granted, or whose wait is a deadlock: the oldest wave first (R55, R57). -/
def State.growDue (s : State) : Option Action :=
  let waiting := (List.range s.waves.length).filter fun w => (s.wave w).growing
  ((sortBy (fun x y => (s.wave x).age ≤ (s.wave y).age) waiting).find? fun w => match execGrowGrant w s with
    | .next t => t.wave w != s.wave w
    | _ => false).map fun w => .event (.growGrant w)

/-- A block to place, or one that spinning blocks can make room for (R327, R329). -/
def State.placeDue (s : State) : Option Action :=
  match s.ready with
  | b :: _ => some (.event (.blockPlace b))
  | [] =>
    if !((List.range s.blocks.length).any fun b => s.spinning b) then none
    else
      let due := fun (b : Nat) => s.mayDisplace b && !(s.block b).shadow &&
        match s.spinVictims b with
        | some vs => !vs.isEmpty && vs.any fun x => !(s.block x).stopping || s.mayFinish x
        | none => false
      let key := fun (b : Nat) => if (s.block b).phase == .waiting then 0 else 1 + (s.block b).waitSince
      (((List.range s.blocks.length).filter due).foldl (fun (acc : Option Nat) b =>
        match acc with
        | some x => if key b < key x then some b else some x
        | none => some b) none).map fun b => .event (.spinPreemption b)

/-- A screen to compare or to abandon (R395). -/
def State.screenDue (s : State) : Option Action :=
  s.maint.screens.findSome? fun x =>
    if s.screenDone x then some (.event (.screenCompare x.id))
    else if s.screenLate x then some (.event (.screenAbandon x.id)) else none

/-- The dump engine or a self-test (R399, R405); a test passes. -/
def State.maintDue (s : State) : Option Action :=
  if s.maint.dmpst.toNat % 4 == 1 then some (.event .dumpStart)
  else if s.maint.stestBusy && (s.residents s.maint.stestRun).isEmpty then some (.event (.selfTestRun true))
  else none

/-- Corrected errors of an hour that is over and not summarised (R401). -/
def State.summaryDue (s : State) : Option Action :=
  if s.maint.banks.any fun x => 0 < x.count && !x.noted && x.hour < s.ticks / hourTicks then
    some (.event .correctedSummary)
  else none

/-- A key of a port under which 2^32 slots have gone (R380). -/
def State.keyRenewalDue (s : State) : Option Action :=
  (List.finRange 36).findSome? fun i => match s.ports[i.val]? with
    | some p =>
      if keyDue p.recvSlots p.recvEpoch then some (.event (.keyRenewal i true))
      else if keyDue p.sendSlots p.sendEpoch then some (.event (.keyRenewal i false)) else none
    | none => none

/-- The first of several choices that has something. -/
def firstOf : List (Unit → Option Action) → Option Action
  | [] => none
  | f :: t => match f () with
    | some a => some a
    | none => firstOf t

/-- What is due now, the first in this order. -/
def State.due (s : State) : Option Action :=
  if s.trust.boot == .reset then some (.event .moduleReset)
  else firstOf
    [fun _ => if s.egress.isEmpty then none else some (.egress 0), fun _ => s.settleDue, fun _ => s.loadDue, fun _ => s.copyDue, fun _ => s.timerDue, fun _ => s.patienceDue,
     fun _ => s.lapseDue, fun _ => s.teardownDue, fun _ => s.stopDue, fun _ => s.stepDue, fun _ => s.roundDue,
     fun _ => s.slotDue, fun _ => s.packetDue, fun _ => s.growDue, fun _ => s.placeDue, fun _ => s.screenDue,
     fun _ => s.maintDue, fun _ => s.summaryDue, fun _ => s.keyRenewalDue]

/-! The choice among fragments and stream contexts (R62, R330). -/

/-- The fragment would stand as it stands. -/
def Ctx.wouldStand (c : Ctx) (after : Option Ctx) : Bool :=
  match after with
  | none => false
  | some a =>
    a.f.pc == c.f.pc && a.f.hold == c.f.hold && a.f.park.isSome &&
      (a.f.park == c.f.park || a.f.park == some .stall || a.f.park == some .queue || a.f.park == some .member)

/-- The fragment's next instruction has no unmet interlock, park or stall (R330). -/
def State.isReady (s : State) (r : FragRef) : Bool :=
  match s.issuing r with
  | none => false
  | some c => match c.go with
    | .next t => !c.wouldStand (Ctx.of? t r)
    | _ => false

/-- What an instruction needs of its quadrant in its cycle, by its opcode: nothing, the vector unit, for arithmetic
without a uniform destination, or the memory port, for what else format M holds. DESIGN CHOICE, log entry 1. -/
inductive QuadUnit
  | none
  | vector
  | memory
  deriving DecidableEq, Repr

def unitOf (w : Word) : QuadUnit :=
  let op := (w.extractLsb' 24 8).toNat
  let d := (w.extractLsb' 16 8).toNat
  let arith := (0x14 ≤ op && op ≤ 0x16) || (0x20 ≤ op && op ≤ 0xA0) || (0xF0 ≤ op && op ≤ 0xFA)
  if arith then (if 0x80 ≤ d && d < 0xC0 then .none else .vector)
  else if 0xC0 ≤ op then .memory else .none

/-- What the fragment's next instruction needs of its quadrant; a trap due before it needs nothing. -/
def Ctx.unit (c : Ctx) : QuadUnit :=
  if c.pending.isSome then .none
  else match c.wordAt with
    | .word w => unitOf w
    | .stop _ => .none

/-- The fragments of the waves that may issue. -/
def State.fragRefs (s : State) : List FragRef :=
  (List.range s.waves.length).flatMap fun w =>
    if (s.wave w).retired then []
    else [Slice.a, Slice.c].flatMap fun sl => (((s.wave w).stream sl).live).map fun x =>
      { wave := w, slice := sl, entry := x.1 }

/-- A ready fragment with what the choice reads. -/
structure Candidate where
  ref : FragRef
  core : Nat
  quadrant : Nat
  slot : Nat
  since : Nat
  age : Nat
  idx : Nat
  /-- Its block is a shadow, which runs at the lowest priority (R395). -/
  shadow : Bool
  /-- Every load queue of its wave holds fewer than 8 entries. -/
  light : Bool
  unit : QuadUnit

def State.candidate (s : State) (r : FragRef) : Candidate :=
  let w := s.wave r.wave
  { ref := r, core := w.core, quadrant := w.slot / 8, slot := w.slot
    since := ((s.frag r).map (·.ready)).getD 0
    age := (s.wave ((s.block w.block).waves.headD r.wave)).age, idx := w.idx
    shadow := (s.block w.block).shadow
    light := w.lq.all fun q => q.waiting < 8
    unit := ((Ctx.of? s r).map Ctx.unit).getD .none }

/-- Ready for 64 cycles or more (step 1 of R330). -/
def Candidate.late (x : Candidate) (now : Nat) : Bool := x.since + 64 ≤ now

/-- The order of the choice within a slice of a quadrant (R330); shadows come last (R395). -/
def Candidate.key (now : Nat) (x : Candidate) : List Nat :=
  (if x.shadow then 1 else 0) ::
    if x.late now then [0, x.since, x.slot, x.ref.entry] else [1, x.age, x.idx, x.ref.entry]

/-- Which of the choices of the two slices issue: both, unless both need the vector unit or the memory port (R330). -/
def chooseSlices (now : Nat) : Option Candidate → Option Candidate → List Candidate
  | some a, some c =>
    if a.shadow != c.shadow && a.unit == c.unit && a.unit != .none then (if a.shadow then [c] else [a])
    else if a.unit == .none || a.unit != c.unit then [a, c]
    else match a.late now, c.late now with
      | true, false => [a]
      | false, true => [c]
      | true, true => if c.since < a.since then [c] else [a]
      | false, false => if a.light then [a] else [c]
  | a, c => a.toList ++ c.toList

/-- The fragments that issue in a cycle: the choices of R330 in every quadrant. -/
def State.choose (s : State) (rs : List Candidate) : List FragRef :=
  let quads := (rs.map fun x => (x.core, x.quadrant)).eraseDups
  quads.flatMap fun q =>
    let mine := rs.filter fun x => x.core == q.1 && x.quadrant == q.2
    (chooseSlices s.cycle (leastBy (Candidate.key s.cycle) (mine.filter (·.ref.slice == .a)))
      (leastBy (Candidate.key s.cycle) (mine.filter (·.ref.slice == .c)))).map (·.ref)

/-- Fragments that are not ready become ready no earlier than the next cycle. -/
def State.notReady (s : State) (rs : List FragRef) : State :=
  rs.foldl (fun s r => s.updWave r.wave fun w =>
    let st := w.stream r.slice
    match st.frag r.entry with
    | some f => w.setStream r.slice (st.setFrag r.entry (some { f with ready := s.cycle + 1 }))
    | none => w) s

/-- The stream contexts that can go on. -/
def State.enginesReady (s : State) : List (Nat × Nat) :=
  (s.engines.filter fun x => x.mayRun && match x.go s with
    | .next t => t.xctx? x.engine x.k != some x
    | _ => false).map fun x => (x.engine, x.k)

/-- What goes on by itself in a cycle: held instructions that can complete, the fragments that R330 chooses, and the
stream contexts. DESIGN CHOICE, log entry 1. -/
def State.goOn (s : State) : State × Action :=
  let all := s.fragRefs
  let rs := all.filter s.isReady
  let s' := s.notReady (all.filter fun r => !rs.contains r)
  let held := rs.filter fun r => ((s.frag r).bind (·.hold)).isSome
  let new := s.choose ((rs.filter fun r => !held.contains r).map s.candidate)
  let es := s.enginesReady
  (s', if held.isEmpty && new.isEmpty && es.isEmpty then .elapse 1 else .cycle (held ++ new) es)

/-- The state and the action of a step for which nothing has been ordered. DESIGN CHOICE, log entry 1. -/
def State.default (s : State) : State × Action :=
  match s.due with
  | some a => (s, a)
  | none => s.goOn

/-! Performing an action. -/

/-- The waves that an event changes as an issue would, so that rollback undoes it (R391). -/
def State.eventWaves (s : State) : Instr → List Nat
  | .loadReturn w _ => [w]
  | .growGrant w => [w]
  | .tlbInvalidation fn asid _ _ => s.wavesOf fn asid
  | _ => []

/-- The core of a wave keeps the lines that a load of its in flight reads in its L1, whose accesses may then find them
stale (R221, R240, R416). -/
def State.keepLines (s : State) (w load : Nat) : State :=
  match (s.wave w).loads.find? (·.id == load) with
  | none => s
  | some ld =>
    let keys := ((ld.lanes.filter fun x => !x.place.isLocal).flatMap fun x =>
      [x.addr / 32, (x.addr + ld.size - 1) / 32].map fun i => ({ place := x.place, idx := i } : SecKey)).eraseDups
    keys.foldl (fun s k => s.takeLine (s.launchOf w) (s.wave w).core true k) s

/-- A held SSTD is to leave its bytes in an egress queue when it performs (R220, R240). -/
def State.post (s : State) (r : FragRef) : State :=
  match s.frag r with
  | none => s
  | some f => s.updWave r.wave fun w => w.setStream r.slice ((w.stream r.slice).setFrag r.entry
      (some { f with hold := f.hold.map fun h => { h with post := true } }))

/-- Perform one action: an event of the opcode table has no issuer. After a thermal trip every clock stands still, and only
the host's release of the reset has an effect (R414). -/
def State.perform (s : State) (act : Action) : Host.Outcome State Fault Refusal :=
  if s.trust.boot == .tripped && act != .event .moduleReset then .next s else
  match act with
  | .issue r => s.issue r
  | .command e k => s.command e k
  | .event i => onNext (fun t => (s.eventWaves i).foldl (fun t w => t.keepSnapshot s w) t) (exec i { s with issuer := .none })
  | .elapse n => .next (s.tick n [])
  | .cycle rs cs => s.oneCycle cs [] rs
  | .drain r i => .next (s.drainOne r i)
  | .post r => .next (s.post r)
  | .egress i => .next (s.sendEgress i)
  | .keepLines w load => .next (s.keepLines w load)
  | .fillPart e k n => .next (s.updXctx e k fun x => { x with quota := some n })
  | .loadFirmware d => .next (s.loadFirmware d)
  | .sendSlots p n => .next (s.sendSlots p n)
  | .poke host a bs => .next (if host then s.hostStore a bs else if s.inRecovery then s else s.devWrite a bs)
  | .vendorSlow fn => .next { s with trust := { s.trust with slow := addOwner s.trust.slow fn } }
  | .vendorFinish fn => .next (s.vendorFinish fn)
  | .linkSymbols lane n => .next (s.countSymbols (144 + lane) n)
  | .record r => .next (if s.inRecovery then s else { s with records := s.records ++ [r] })

/-- The module holds in reset after a thermal trip and nothing has been ordered (R414). -/
def State.held (s : State) : Bool := s.agenda.isEmpty && s.trust.boot == .tripped

/-- The next action and the state in which it is performed. -/
def State.nextAction (s : State) : State × Action :=
  match s.agenda with
  | a :: t => ({ s with agenda := t }, a)
  | [] => s.default

/-! A module made ready to run one instruction. -/

/-- Where the word or the command that `withFetchWord` places stands, virtual and physical. -/
def fetchVa : Nat := 2 ^ 33 + 0x10000

/-- A translation of the physical function's ASID 0: data at virtual 0, code at virtual 2^33, each the 8 GiB at
the same physical address. -/
def State.identityMap (s : State) : State :=
  let s := { s with mregs := { s.mregs with asrt := 0x8000 } }
  let s := s.devWrite 0x8000 (bytesOfNat 8 0xA001)
  let s := s.devWrite 0xA000 (bytesOfNat 8 0xC001)
  s.devWrite 0xC000 (bytesOfNat 8 0x17 ++ bytesOfNat 8 0x20000001B)

/-- A launch of the physical function with one coupled block of one wave, resident and at `fetchVa`. -/
def State.withWave (s : State) : State :=
  let b := s.blocks.length
  let w := s.waves.length
  let p : Packet := { cpc := BitVec.ofNat 64 fetchVa, scr := 65536, wbuf := 65536, abuf := 65536, cbuf := 65536
                      pbase := 0x100000 }
  let l : Launch := { fn := Config.physFn, asid := 0, queue := 0, packet := p, priv := 2, backing := [0] }
  let k : Block := { launch := s.launches.length, index := 0, phase := .resident, waves := [w], scrSize := 65536
                     wbufSize := 65536, abufSize := 65536, cbufSize := 65536 }
  let q := fun (x : Queue) => { x with slot := some 0, asid := 0, preempted := false, draining := false }
  let slot := (s.openSlots 0).headD 0
  { s with
    trust := { s.trust with boot := .booted }
    waves := s.waves ++ [{ newWave p b 0 0 slot 0 0 s.cycle (List.replicate 16 0) with holdsSlot := true }]
    blocks := s.blocks ++ [k]
    launches := s.launches ++ [l]
    queues := upsert (·.id == 0) { id := 0, fn := Config.physFn } q s.queues
    contexts := s.contexts.filter (fun c => !(c.fn == Config.physFn && c.asid == 0)) ++ [{ newContext Config.physFn 0 with accepted := true }] }

/-- A stream context 0 of engine 0 bound to the last launch, at `fetchVa`. -/
def State.withEngine (s : State) : State :=
  let x : XCtx := { engine := 0, k := 0, launch := s.launches.length - 1, pc := fetchVa, seq := 0
                    site := { wave := s.waves.length - 1, slice := .c, entry := 0 }, sitePc := 0 }
  { s with engines := (s.engines.filter fun y => !(y.engine == 0 && y.k == 0)) ++ [x] }

/-- The machine with an instruction of `nbits` bits placed where the next step fetches it. -/
def State.placeWord (s : State) (nbits w : Nat) : State :=
  let s := s.identityMap.withWave
  if nbits ≤ 32 then
    let s := s.devWrite fetchVa (bytesOfNat 4 w)
    { s with agenda := .issue { wave := s.waves.length - 1, slice := .c, entry := 0 } :: s.agenda }
  else
    let s := (s.devWrite fetchVa (bytesOfNat 16 w)).withEngine
    { s with agenda := .command 0 0 :: s.agenda }

end Sys2Proof.Machine
end

