-- ==== Sys2Proof/Machine/Step.lean ====
section
/-!
DEFINITION. One step of the machine, and a machine whose next step runs a given word.
-/

namespace Sys2Proof.Machine

/-- One step: the first thing that has been ordered, else what the default policy chooses; DESIGN CHOICE, log entries 1 and 2. -/
def step (s : State) : Host.Outcome State Fault Refusal :=
  if s.held then .fault .heldInReset
  else s.nextAction.1.perform s.nextAction.2

/-- The state with the word of an instruction placed where the next step fetches it; DESIGN CHOICE, log entry 3. -/
def State.withFetchWord (s : State) (nbits w : Nat) : State := s.placeWord nbits w

end Sys2Proof.Machine
end

