-- ==== Sys2Proof/Safety.lean ====
section
/-!
DEFINITION. What claims call a safe run, and the words in which they are stated: who issues, which checks
pass, and the state that an instruction leaves when it completes.
-/

namespace Sys2Proof.Machine

/-! Safe runs. -/

/-- Device and host memory are in the canonical form: addresses rising, no entry equal to an unlisted byte. -/
def State.memWf (s : State) : Bool := s.memories.dev.wf && s.memories.host.wf

/-- A step gives a next state: it neither faults nor refuses. -/
def State.goesOn (s : State) : Bool :=
  match step s with
  | .next _ => true
  | _ => false

/-- The states that steps reach from a state. -/
inductive Reaches (s : State) : State → Prop
  | refl : Reaches s s
  | step {t u : State} : Reaches s t → step t = .next u → Reaches s u

/-- Every state that steps reach goes on. -/
def State.safe (s : State) : Prop := ∀ t, Reaches s t → t.goesOn = true

/-! Instructions that complete. -/

/-- The fragment `c.r` executes the instruction at hand in `s`, and `c` is its context there. -/
structure State.Issues (s : State) (c : Ctx) : Prop where
  issuer : s.issuer = .frag c.r
  context : Ctx.of? s c.r = some c

/-- The registers that an instruction names, the guard among them where it reads it. -/
def Ctx.named (c : Ctx) (n : Need) : List RegId := if n.guard then .p (modeGp c.mode) :: n.regs else n.regs

/-- The checks of R119 pass: no load in flight owes a register that the instruction names, and no position
from 2 to 7 holds. -/
structure Ctx.Passes (c : Ctx) (n : Need) : Prop where
  loads : ∀ l ∈ c.w.loads, l.slice = c.r.slice → meets l.writes (c.named n) = false
  owed : meets c.owed (c.named n) = false
  legal : n.illegal = false
  outside : n.noRegion = true → c.st.region = none
  operands : n.operand = false
  guards : n.guard = true → c.guardOk = true
  privilege : n.priv = false
  modes : n.mode = false
  windows : ∀ w ∈ c.f.windows, meets w.regs n.regs = false
  clear : n.post = none

/-- The state once the instruction has completed in sequence, with the lookahead window it opens: it is
counted (R108, R110), and the next PC is the one of R114. -/
def Ctx.done (c : Ctx) (w : Option Window := none) : State := (Act.next c w).state

/-- The state once the instruction has completed by a taken transfer (R115). -/
def Ctx.jumped (c : Ctx) (target : Dword) : State := (Act.jump c target).state

/-- The instruction has issued before and its settle window is over (R207). -/
structure Ctx.Settled (c : Ctx) (h : Hold) : Prop where
  held : c.f.hold = some h
  settled : h.settled = true

end Sys2Proof.Machine
end

