-- ==== Sys2Proof/Certificates/Slice0/Obligations.lean ====
section
/-!
DEFINITION. The statements for the provers, stated from the numbered rules of the manual. The words in which they are
stated stand in Sys2Proof.Claims; each obligation is a definition Obligations.<Name>.
-/

namespace Sys2Proof.Claims


open Sys2Proof.Machine

/-! Forms: an instruction with what it asks and what it leaves. -/

/-- An instruction that completes in sequence once its checks pass: what it asks, the context that its effect
leaves, and the lookahead window it opens. -/
structure Form where
  i : Instr
  need : Need
  out : Ctx
  win : Option Window := none

/-- Every form of a list completes with its effect in the issuing fragment. -/
def Completes (s : State) (c : Ctx) (fs : List Form) : Prop :=
  ∀ f ∈ fs, c.Passes f.need → exec f.i s = .next (f.out.done f.win)

/-- An instruction that has settled completes with its effect. -/
structure Settles where
  i : Instr
  out : Ctx
  win : Option Window := none

/-- Every instruction of a list, held and settled, completes with its effect. -/
def Performs (s : State) (fs : List Settles) : Prop := ∀ f ∈ fs, exec f.i s = .next (f.out.done f.win)

/-- A lane-executed or uniform instruction with the operation that its rule gives. -/
structure LaneForm where
  i : Instr
  op : LaneOp

/-- The sources of a lane operation in the order in which they are read; the destination is last where it is read. -/
def reads (o : LaneOp) : List Src :=
  if o.readsD then o.srcs ++ [{ spec := o.d, w64 := o.w64, raw := true }] else o.srcs

/-- The checks pass, every source can be read, and the destination can be written: queue entries are filled,
and there is room for the ones that are reserved. -/
structure CanRun (c : Ctx) (o : LaneOp) (c1 : Ctx) (vals : List (Nat → Dword)) (c2 : Ctx) : Prop where
  passes : c.Passes (o.need c)
  sources : c.readAll (reads o) = .ok c1 vals
  written : c1.writeDst o.d o.w64 (fun l => o.f c1 l (vals.map fun v => v l)) = .ok c2

/-- Every lane form of a list completes: its results go to its destination, and a format M form opens its window. -/
def LanesComplete (s : State) (c : Ctx) (fs : List LaneForm) : Prop :=
  ∀ f ∈ fs, ∀ c1 vals c2, CanRun c f.op c1 vals c2 →
    exec f.i s = .next (c2.done (f.op.la.bind fun k => c.window k f.op.protect))

/-! Integer forms (R136 to R146). -/

/-- A short integer instruction under the element type in force: `t` is the exact result of an element, and `sat`
says that SAT may clamp it (R75, R137). -/
def intForm (c : Ctx) (i : Instr) (d : Spec) (srcs : List Spec) (readsD sat : Bool) (t : Nat → List Int → Int) :
    LaneForm :=
  { i := i
    op := { d := d, w64 := c.w64, srcs := srcs.map fun x => { spec := x, w64 := c.w64, et := some c.et }
            readsD := readsD, mode := badEt c.et [0, 1, 2, 3, 4, 10, 11, 12]
            f := fun c1 _ xs => perElem c.et xs fun es =>
              storeInt (sat && c1.sat) (etSigned c.et) (etWidth c.et)
                (t (etWidth c.et) (es.map (intOf (etSigned c.et) (etWidth c.et)))) } }

/-- IDIV and IREM with the corners of R76. -/
def divForm (c : Ctx) (i : Instr) (x a : Spec) (la : BitVec 4) (pick : Int × Int → Int) : LaneForm :=
  { i := i
    op := { d := x, w64 := c.w64, srcs := [{ spec := a, w64 := c.w64, et := some c.et }], readsD := true
            mode := badEt c.et [0, 1, 2, 3, 4], la := some la
            f := fun c1 _ xs => perElem c.et xs fun es =>
              let x := intOf (etSigned c.et) (etWidth c.et) (es.getD 1 0)
              let y := intOf (etSigned c.et) (etWidth c.et) (es.getD 0 0)
              storeInt c1.sat (etSigned c.et) (etWidth c.et)
                (pick (if y == 0 then (if etSigned c.et then -1 else 2 ^ etWidth c.et - 1, x)
                  else (x.tdiv y, x.tmod y))) } }

/-- A bit instruction of 32 or 64 bits; `b` is its count or field operand (R139, R140). -/
def bitForm (c : Ctx) (i : Instr) (d : Spec) (srcs : List Spec) (b : List Spec) (readsD : Bool)
    (g : Nat → List Nat → Nat) : LaneForm :=
  { i := i
    op := { d := d, w64 := c.w64
            srcs := (srcs.map fun x => { spec := x, w64 := c.w64, et := some c.et }) ++
              b.map fun x => { spec := x, raw := true }
            readsD := readsD, mode := badEt c.et anyEt
            f := fun _ _ xs => BitVec.ofNat 64
              (g (if c.w64 then 64 else 32) (xs.map (·.toNat)) % 2 ^ (if c.w64 then 64 else 32)) } }

/-- A floating instruction that rounds its exact result once under RM (R147, R148). -/
def roundForm (c : Ctx) (i : Instr) (d : Spec) (srcs : List Spec) (readsD : Bool) (la : Option (BitVec 4))
    (g : Rm → (Nat → XReal) → XReal) : LaneForm :=
  { i := i
    op := { d := d, w64 := c.w64, srcs := srcs.map fun x => { spec := x, w64 := c.w64, et := some c.et }
            readsD := readsD, la := la, mode := badEt c.et [5, 6, 7, 8] || badRm c.mode
            f := fun c1 _ xs => perElem c.et xs fun es =>
              ((etFmt c.et).getD f32).write c1.ftz c1.rm
                (g c1.rm fun k => ((etFmt c.et).getD f32).read c1.ftz (es.getD k 0)) } }

/-- A floating instruction that does not read RM, over the element types `ok` (R147, R148). -/
def plainForm (c : Ctx) (i : Instr) (d : Spec) (srcs : List Spec) (ok : List Nat) (la : Option (BitVec 4))
    (g : Bool → Fmt → List Nat → Nat) : LaneForm :=
  { i := i
    op := { d := d, w64 := c.w64, srcs := srcs.map fun x => { spec := x, w64 := c.w64, et := some c.et }
            la := la, mode := badEt c.et ok
            f := fun c1 _ xs => perElem c.et xs fun es => g c1.ftz ((etFmt c.et).getD f32) es } }

/-- A shuffle: lane l receives register a of lane `src l n`, or zero where that lane is absent (R34, R35, R151). -/
def shuffleForm (c : Ctx) (i : Instr) (d a : Spec) (b : List Spec) (src : Nat → Nat → Nat) : LaneForm :=
  { i := i
    op := { d := d, w64 := c.w64, srcs := b.map fun x => { spec := x, raw := true }, vecOnly := true
            operand := !isVec a || !c.srcOk false { spec := a, w64 := c.w64, raw := true } || !isVec d
            mode := badEt c.et anyEt, extra := specRegs a (if c.w64 then 2 else 1)
            f := fun c1 l xs =>
              let k := src l ((xs.getD 0 0).toNat % 2 ^ 32)
              let n := vecNum a
              if !c1.present.getLsbD k then 0
              else if c.w64 then pair ((c1.rd.vec n).lane k) ((c1.rd.vec (n + 1)).lane k)
              else ((c1.rd.vec n).lane k).setWidth 64 } }

/-- The integer instructions with their exact results (R137, R138). -/
def intForms (c : Ctx) (d a b : Spec) (la : BitVec 4) : List LaneForm := [
    intForm c (.iadd d a b) d [a, b] false true fun _ x => x.getD 0 0 + x.getD 1 0,
    intForm c (.isub d a b) d [a, b] false true fun _ x => x.getD 0 0 - x.getD 1 0,
    intForm c (.imul d a b) d [a, b] false true fun _ x => x.getD 0 0 * x.getD 1 0,
    intForm c (.imulh d a b) d [a, b] false false fun w x => (x.getD 0 0 * x.getD 1 0).fdiv (2 ^ w),
    intForm c (.imad d a b) d [a, b] true true fun _ x => x.getD 0 0 * x.getD 1 0 + x.getD 2 0,
    intForm c (.imin d a b) d [a, b] false false fun _ x => min (x.getD 0 0) (x.getD 1 0),
    intForm c (.imax d a b) d [a, b] false false fun _ x => max (x.getD 0 0) (x.getD 1 0),
    intForm c (.iabs d a) d [a] false true fun _ x => ((x.getD 0 0).natAbs : Int),
    intForm c (.ineg d a) d [a] false true fun _ x => -x.getD 0 0,
    divForm c (.idiv d a la) d a la (·.1),
    divForm c (.irem d a la) d a la (·.2)]

/-- The bit, shift and field instructions; w is 32 or 64 (R139, R140). -/
def bitForms (c : Ctx) (d a b : Spec) : List LaneForm := [
    bitForm c (.and d a b) d [a, b] [] false fun _ x => Nat.land (x.getD 0 0) (x.getD 1 0),
    bitForm c (.or d a b) d [a, b] [] false fun _ x => Nat.lor (x.getD 0 0) (x.getD 1 0),
    bitForm c (.xor d a b) d [a, b] [] false fun _ x => Nat.xor (x.getD 0 0) (x.getD 1 0),
    bitForm c (.andn d a b) d [a, b] [] false fun w x => Nat.land (x.getD 0 0) (2 ^ w - 1 - x.getD 1 0 % 2 ^ w),
    bitForm c (.shl d a b) d [a] [b] false fun w x => if w ≤ x.getD 1 0 then 0 else x.getD 0 0 * 2 ^ x.getD 1 0,
    bitForm c (.shr d a b) d [a] [b] false fun w x =>
      if w ≤ x.getD 1 0 then 0 else x.getD 0 0 % 2 ^ w / 2 ^ x.getD 1 0,
    bitForm c (.sar d a b) d [a] [b] false fun w x =>
      wrapInt w ((intOf true w (x.getD 0 0 % 2 ^ w)).fdiv (2 ^ min w (x.getD 1 0))),
    bitForm c (.rol d a b) d [a] [b] false fun w x =>
      x.getD 0 0 % 2 ^ w * 2 ^ (x.getD 1 0 % w) + x.getD 0 0 % 2 ^ w / 2 ^ (w - x.getD 1 0 % w),
    bitForm c (.popc d a) d [a] [] false fun w x => popCount (x.getD 0 0) w,
    bitForm c (.clz d a) d [a] [] false fun w x =>
      ((List.range w).find? fun k => (x.getD 0 0).testBit (w - 1 - k)).getD w,
    bitForm c (.ctz d a) d [a] [] false fun w x => ((List.range w).find? fun k => (x.getD 0 0).testBit k).getD w,
    bitForm c (.brev d a) d [a] [] false fun w x =>
      (List.range w).foldl (fun r k => r + (if (x.getD 0 0).testBit (w - 1 - k) then 2 ^ k else 0)) 0,
    bitForm c (.bfx d a b) d [a] [b] false fun w x =>
      let pos := x.getD 1 0 % 256
      let top := min (pos + x.getD 1 0 / 256 % 256) w - pos
      let field := x.getD 0 0 % 2 ^ w / 2 ^ pos % 2 ^ top
      if (c.et == 1 || c.et == 3) && 0 < top then wrapInt w (intOf true top field) else field,
    bitForm c (.bfi d a b) d [a] [b] true fun w x =>
      let pos := x.getD 1 0 % 256
      let top := min (pos + x.getD 1 0 / 256 % 256) w - pos
      x.getD 2 0 - x.getD 2 0 / 2 ^ pos % 2 ^ top * 2 ^ pos + x.getD 0 0 % 2 ^ top * 2 ^ pos]

/-- Moves, immediates, select and address arithmetic (R136, R143, R144). -/
def moveForms (c : Ctx) (d a b : Spec) (i : BitVec 16) : List LaneForm := [
    ⟨.ldi d i, { d := d, srcs := [], f := fun _ _ _ => (i.signExtend 32).setWidth 64 }⟩,
    ⟨.ldih d i, { d := d, srcs := [], readsD := true
                  f := fun _ _ x => (i ++ (x.getD 0 0).setWidth 16 : Word).setWidth 64 }⟩,
    ⟨.mov d a, { d := d, w64 := c.w64, srcs := [{ spec := a, w64 := c.w64, et := some c.et }]
                 mode := badEt c.et anyEt, f := fun _ _ x => x.getD 0 0 }⟩,
    ⟨.sel d a b, { d := d, w64 := c.w64
                   srcs := [{ spec := a, et := some (narrowEt c.et) }, { spec := b, w64 := c.w64, et := some c.et }]
                   readsD := true, mode := badEt c.et anyEt
                   f := fun _ _ x => if (x.getD 0 0).setWidth 32 != 0#32 then x.getD 1 0 else x.getD 2 0 }⟩,
    ⟨.aadd d a b, { d := d, w64 := true, srcs := [{ spec := a, w64 := true, raw := true }, { spec := b, raw := true }]
                    f := fun _ _ x => x.getD 0 0 + ((x.getD 1 0).setWidth 32).signExtend 64 }⟩,
    ⟨.amad d a b, { d := d, srcs := [{ spec := a, raw := true }, { spec := b, raw := true }], readsD := true
                    f := fun _ _ x => ((x.getD 0 0 * x.getD 1 0 + x.getD 2 0).setWidth 32).setWidth 64 }⟩]

/-- The floating instructions (R147, R148). -/
def floatForms (c : Ctx) (d a b : Spec) (la : BitVec 4) : List LaneForm := [
    roundForm c (.fadd d a b) d [a, b] false none fun rm x => (x 0).add rm (x 1),
    roundForm c (.fsub d a b) d [a, b] false none fun rm x => (x 0).add rm (x 1).neg,
    roundForm c (.fmul d a b) d [a, b] false none fun _ x => (x 0).mul (x 1),
    roundForm c (.ffma d a b) d [a, b] true none fun rm x => ((x 0).mul (x 1)).add rm (x 2),
    roundForm c (.ffms d a b) d [a, b] true none fun rm x => ((x 0).mul (x 1)).add rm (x 2).neg,
    roundForm c (.frnd d a) d [a] false none fun rm x => (x 0).toIntegral rm,
    roundForm c (.fdiv d a la) d [a] true (some la) fun _ x => (x 1).div (x 0),
    roundForm c (.frcp d a la) d [a] false (some la) fun _ x => (XReal.fin false 1 1).div (x 0),
    roundForm c (.fsqrt d a la) d [a] false (some la) fun _ x => (x 0).sqrt,
    plainForm c (.fmin d a b) d [a, b] [5, 6, 7, 8] none fun z f x => f.minMax z false (x.getD 0 0) (x.getD 1 0),
    plainForm c (.fmax d a b) d [a, b] [5, 6, 7, 8] none fun z f x => f.minMax z true (x.getD 0 0) (x.getD 1 0),
    plainForm c (.fabs d a) d [a] [5, 6, 7, 8] none fun z f x => f.write z .rne (f.read z (x.getD 0 0)).abs,
    plainForm c (.fneg d a) d [a] [5, 6, 7, 8] none fun z f x => f.write z .rne (f.read z (x.getD 0 0)).neg,
    plainForm c (.frsq d a la) d [a] [5, 6, 7, 8] (some la) fun z f x => Fixed.rsq.apply f z (x.getD 0 0),
    plainForm c (.fexp2 d a la) d [a] [5, 7, 8] (some la) fun z f x => Fixed.exp2.apply f z (x.getD 0 0),
    plainForm c (.flog2 d a la) d [a] [5, 7, 8] (some la) fun z f x => Fixed.log2.apply f z (x.getD 0 0),
    plainForm c (.fsin d a la) d [a] [5, 7, 8] (some la) fun z f x => Fixed.sin.apply f z (x.getD 0 0),
    plainForm c (.fcos d a la) d [a] [5, 7, 8] (some la) fun z f x => Fixed.cos.apply f z (x.getD 0 0),
    plainForm c (.ftanh d a la) d [a] [5, 7, 8] (some la) fun z f x => Fixed.tanh.apply f z (x.getD 0 0),
    ⟨.fcls d a, { d := d, srcs := [{ spec := a, w64 := c.w64, et := some c.et }], mode := badEt c.et [5, 6]
                  f := fun _ _ x =>
                    let f := (etFmt c.et).getD f32
                    (f.classify (elemOf f.width 0 (x.getD 0 0))).setWidth 64 }⟩]

/-- Conversion, packing, dot product and requantising (R149, R150, R289). -/
def packForms (c : Ctx) (d a b : Spec) (e : BitVec 3) (k : BitVec 5) (la : BitVec 4) : List LaneForm := [
    ⟨.cvt d a e k,
      { d := d, w64 := c.w64
        srcs := [{ spec := a, w64 := k.toNat == 2 || k.toNat == 3 || k.toNat == 5
                   raw := (k.toNat == 2 || k.toNat == 3 || k.toNat == 5) && !c.w64 && c.et < 13, et := some c.et }]
        readsD := etPacked c.et && k.toNat < 6
        illegal := 20 ≤ k.toNat || (14 ≤ k.toNat && e.toNat != 0) || (k.toNat < 6 && !etPacked c.et && e.toNat != 0)
        operand := (etPacked c.et && isQueue d) ||
          ((k.toNat == 2 || k.toNat == 3 || k.toNat == 5) && c.et == 9 && isConst a) ||
          (k.toNat < 6 && etPacked c.et && etCount c.et ≤ e.toNat) ||
          ((6 ≤ k.toNat && k.toNat < 14) && (etPacked c.et || 32 / (cvtSrc k.toNat).2 ≤ e.toNat)) ||
          (!badEt c.et cvtEts && 14 ≤ k.toNat && (!etPacked c.et || etCount c.et != 32 / (cvtSrc k.toNat).2))
        mode := badEt c.et cvtEts || (cvtReadsRm c.et k.toNat && badRm c.mode)
        f := fun c1 _ x =>
          let conv := fun (y : Nat) => cvtWrite c.et c1.ftz c1.sat c1.rm (cvtRead k.toNat c1.ftz y)
          if 14 ≤ k.toNat then
            ofElems (etWidth c.et) (etCount c.et) fun j => conv (elemOf (cvtSrc k.toNat).2 j (x.getD 0 0))
          else
            let r := conv (elemOf (cvtSrc k.toNat).2 (if 6 ≤ k.toNat && k.toNat < 14 then e.toNat else 0) (x.getD 0 0))
            if etPacked c.et then putElem (etWidth c.et) e.toNat (x.getD 1 0) r else BitVec.ofNat 64 r }⟩,
    ⟨.pack2 d a b,
      { d := d, srcs := [{ spec := a, et := some 5 }, { spec := b, et := some 5 }]
        mode := badEt c.et [7, 8] || badRm c.mode
        f := fun c1 _ x => ofElems 16 2 fun k =>
          ((etFmt c.et).getD f16).write c1.ftz c1.rm (f32.read c1.ftz (elemOf 32 0 (x.getD k 0))) }⟩,
    ⟨.dot4 d a b,
      { d := d, srcs := [{ spec := a, w64 := c.w64, et := some c.et }, { spec := b, w64 := c.w64, et := some c.et }]
        readsD := true, mode := badEt c.et [9, 10, 11, 12]
        f := fun c1 _ x => (dotValue c.et c1.sat (x.getD 0 0) (x.getD 1 0) (x.getD 2 0)).setWidth 64 }⟩,
    ⟨.rqnt d a la,
      { d := d, srcs := [{ spec := a, raw := true }], readsD := true, la := some la
        f := fun _ _ x => ofElems 8 4 fun j =>
          (kd8Requant (intOf true 32 (elemOf 32 0 (x.getD 0 0)))
            (BitVec.ofNat 8 (elemOf 8 j (x.getD 1 0)))).toNat }⟩]

/-- Shuffles, quad exchanges and RDLANE (R151, R152). -/
def shuffleForms (c : Ctx) (d a b : Spec) (q : BitVec 2) : List LaneForm := [
    shuffleForm c (.shfl d a b) d a [b] fun _ n => n % 32,
    shuffleForm c (.shflx d a b) d a [b] fun l n => Nat.xor l (n % 32),
    shuffleForm c (.shflu d a b) d a [b] fun l n => if l < n then l else l - n,
    shuffleForm c (.shfld d a b) d a [b] fun l n => if 31 < l + n then l else l + n,
    shuffleForm c (.qswapx d a) d a [] fun l _ => Nat.xor l 1,
    shuffleForm c (.qswapy d a) d a [] fun l _ => Nat.xor l 2,
    shuffleForm c (.qswapd d a) d a [] fun l _ => Nat.xor l 3,
    shuffleForm c (.qbcst d a q) d a [] fun l _ => l / 4 * 4 + q.toNat,
    ⟨.rdlane d a b,
      { d := d, srcs := []
        operand := !isVec a || !c.srcOk false { spec := a, raw := true } || !isUniform b ||
          !c.srcOk true { spec := b, raw := true }
        extra := specRegs a 1 ++ specRegs b 1
        f := fun c1 _ _ =>
          let k := (c1.uval b).toNat % 32
          if !c1.present.getLsbD k then 0 else ((c1.rd.vec (vecNum a)).lane k).setWidth 64 }⟩]

end Sys2Proof.Claims

open Sys2Proof Sys2Proof.Machine Sys2Proof.Claims

/-- R76, R137, R138: the integer instructions complete with their exact results stored under the element type; division
truncates toward zero, and its corners are those of R76. -/
def Obligations.IntegerArithmetic : Prop :=
  ∀ (s : State) (c : Ctx) (d a b : Spec) (la : BitVec 4), s.Issues c →
    LanesComplete s c (intForms c d a b la)


/-- R136, R139, R140, R143, R144: the bit, shift and field instructions complete with the low w bits of their results,
w being 32 or 64, and so do moves, immediates, select and address arithmetic. A constant in SEL's test position reads
under the 32-bit element type that goes with a 64-bit one (DESIGN CHOICE, log entry 81). -/
def Obligations.BitsAndMoves : Prop :=
  ∀ (s : State) (c : Ctx) (d a b : Spec) (i : BitVec 16), s.Issues c →
    LanesComplete s c (bitForms c d a b ++ moveForms c d a b i)

/-- R147, R148: the floating instructions complete with results rounded once, and the fixed functions with one of the
two values that their accuracy allows (the free choice of log entry 9). FRSQ under f64, for which R148 gives no
rounding, rounds its exact result to nearest even (DESIGN CHOICE, log entry 71). -/
def Obligations.FloatingPoint : Prop :=
  ∀ (s : State) (c : Ctx) (d a b : Spec) (la : BitVec 4), s.Issues c →
    LanesComplete s c (floatForms c d a b la)

/-- R149 to R152, R289: conversion, packing, dot product and requantising complete, and so do shuffles and RDLANE with
the registers of the lanes they name. Where a floating constant stands in a source position of CVT whose format is not
the element type's, the bits it gives are the model's (DESIGN CHOICE, log entry 81). -/
def Obligations.ConversionsAndShuffles : Prop :=
  ∀ (s : State) (c : Ctx) (d a b : Spec) (e : BitVec 3) (k : BitVec 5) (la : BitVec 4) (q : BitVec 2), s.Issues c →
    LanesComplete s c (packForms c d a b e k la ++ shuffleForms c d a b q)

namespace Sys2Proof.Claims

/-! What an instruction leaves alone. -/

/-- After an instruction of the issuing fragment the machine is `t` and the fragment's context there is `k`:
only the fragment and the registers of its stream may differ, and no byte of any memory does, barrier cells apart,
in which a count of parked waves can be read (R174). -/
structure Only (c : Ctx) (t : State) (k : Ctx) : Prop where
  there : Ctx.of? t c.r = some k
  memories : t.memories = c.s.memories
  bytes : ∀ (p : Place) (a : Nat), (∀ b, p = .scr b → (c.s.block b).cell? a = none) →
    t.loadByte c.r.wave none p a = c.s.loadByte c.r.wave none p a
  waves : ∀ w, w ≠ c.r.wave → t.waves[w]? = c.s.waves[w]?
  wave : k.w.setStream c.r.slice c.st = c.w.setStream c.r.slice c.st
  stream : { k.st with frags := c.st.frags, regs := c.st.regs } = c.st
  frags : ∀ e, e ≠ c.r.entry → k.st.frag e = c.st.frag e
  rest : { t with waves := c.s.waves } = c.s

/-- What completion in sequence does to a fragment: it is counted under R108 and R110, and R114 gives its PC. -/
structure InSequence (f g : Frag) : Prop where
  mask : g.mask = f.mask
  stack : g.stack = f.stack
  cc : g.ctl.cc = f.ctl.cc
  awake : g.park = none ∧ g.hold = none
  windows : g.windows = (f.windows.map fun w => { w with left := w.left - 1 }).filter fun w => w.left != 0
  free : f.ctl.count = 0 → g.ctl.mode = f.ctl.mode ∧ g.ctl.count = 0
  last : f.ctl.count = 1 → g.ctl.mode = f.ctl.restore ∧ g.ctl.count = 0
  counted : 1 < f.ctl.count → g.ctl.mode = f.ctl.mode ∧ g.ctl.count = f.ctl.count - 1
  straight : (∀ l ∈ f.ctl.loops.head?, l.last ≠ f.pc) → g.pc = f.pc + 4 ∧ g.ctl.loops = f.ctl.loops
  pass : ∀ l t, f.ctl.loops = l :: t → l.last = f.pc → 1 < l.left.toNat →
    g.pc = l.first ∧ g.ctl.loops = { l with left := l.left - 1 } :: t
  ends : ∀ l t, f.ctl.loops = l :: t → l.last = f.pc → l.left.toNat ≤ 1 → (∀ m ∈ t.head?, m.last ≠ f.pc) →
    g.pc = f.pc + 4 ∧ g.ctl.loops = t

/-- Every lane form. -/
def laneForms (c : Ctx) (d a b : Spec) (e q : BitVec 3) (k : BitVec 5) (i : BitVec 16) (la : BitVec 4) :
    List LaneForm :=
  intForms c d a b la ++ bitForms c d a b ++ moveForms c d a b i ++ floatForms c d a b la ++
    packForms c d a b e k la ++ shuffleForms c d a b (q.setWidth 2)

/-- A lane operation that names no queue. -/
def noQueue (o : LaneOp) : Prop := isQueue o.d = false ∧ ∀ x ∈ o.srcs, isQueue x.spec = false

end Sys2Proof.Claims

/-- R104, R129: a lane form with a vector destination writes the lanes that take part, a register pair low word first
under a 64-bit element type, and no other lane, register, flag or byte of memory. -/
def Obligations.VectorResult : Prop :=
  ∀ (s : State) (c : Ctx) (n : Fin 128) (a b : Spec) (e q : BitVec 3) (k : BitVec 5) (i : BitVec 16) (la : BitVec 4),
    s.Issues c → ∀ f ∈ laneForms c (.v n) a b e q k i la, f.op.d = .v n → noQueue f.op →
    n.val + (if f.op.w64 then 1 else 0) < c.st.regs.v.length → ∀ c1 vals c2, CanRun c f.op c1 vals c2 →
    ∃ t k, exec f.i s = .next t ∧ Only c t k ∧
      (f.op.w64 = false → ∀ l < 32, (k.st.regs.vec n).lane l =
        if c.part.getLsbD l then loWord (f.op.f c l (vals.map fun v => v l)) else (c.st.regs.vec n).lane l) ∧
      (f.op.w64 = true → ∀ l < 32, pair ((k.st.regs.vec n).lane l) ((k.st.regs.vec (n + 1)).lane l) =
        if c.part.getLsbD l then f.op.f c l (vals.map fun v => v l)
        else pair ((c.st.regs.vec n).lane l) ((c.st.regs.vec (n + 1)).lane l)) ∧
      (∀ m, m ≠ n.val → (f.op.w64 = true → m ≠ n + 1) → k.st.regs.vec m = c.st.regs.vec m) ∧
      k.st.regs.s = c.st.regs.s ∧ k.st.regs.p = c.st.regs.p ∧ k.f.ctl.cc = c.f.ctl.cc ∧ k.f.mask = c.f.mask

/-- R104, R129: with a uniform destination the form executes once, whatever the guard, and writes that register or
pair and no other register, flag or byte of memory. -/
def Obligations.UniformResult : Prop :=
  ∀ (s : State) (c : Ctx) (n : Fin 64) (a b : Spec) (e q : BitVec 3) (k : BitVec 5) (i : BitVec 16) (la : BitVec 4),
    s.Issues c → ∀ f ∈ laneForms c (.s n) a b e q k i la, f.op.d = .s n → noQueue f.op →
    n + 1 < c.st.regs.s.length → ∀ c1 vals c2, CanRun c f.op c1 vals c2 →
    ∃ t k, exec f.i s = .next t ∧ Only c t k ∧
      (k.st.regs.uni n = loWord (f.op.f c 0 (vals.map fun v => v 0))) ∧
      (k.st.regs.uni (n + 1) = if f.op.w64 then hiWord (f.op.f c 0 (vals.map fun v => v 0)) else c.st.regs.uni (n + 1)) ∧
      (∀ m, m ≠ n.val → m ≠ n + 1 → k.st.regs.uni m = c.st.regs.uni m) ∧
      k.st.regs.v = c.st.regs.v ∧ k.st.regs.p = c.st.regs.p ∧ k.f.ctl.cc = c.f.ctl.cc ∧ k.f.mask = c.f.mask

namespace Sys2Proof.Claims

/-- An instruction that reads sources and completes: what it asks, its sources, and the context that its effect
leaves, from the one in which the sources have been read. -/
structure ReadForm where
  i : Instr
  need : Need
  srcs : List Src
  out : Ctx → List (Nat → Dword) → Ctx

/-- Every reading form of a list completes with its effect. -/
def ReadsComplete (s : State) (c : Ctx) (fs : List ReadForm) : Prop :=
  ∀ f ∈ fs, c.Passes f.need → ∀ c1 vals, c.readAll f.srcs = .ok c1 vals →
    exec f.i s = .next ((f.out c1 vals).done)

/-- A compare (R141, R142): uniform where both operands are, in which case the guard is not read and CC is written. -/
def compareForm (c : Ctx) (i : Instr) (illegal : Bool) (ok : List Nat) (p : Nat) (a b : Spec)
    (holds : Dword → Dword → Bool) : ReadForm :=
  let uni := isUniform a && isUniform b
  let src := fun (x : Spec) => ({ spec := x, w64 := c.w64, et := some c.et } : Src)
  { i := i
    need :=
      { illegal := illegal
        operand := !c.predOk p || !c.srcOk uni (src a) || !c.srcOk uni (src b)
        guard := !uni
        mode := badEt c.et ok
        regs := .p p :: specRegs a (if c.w64 then 2 else 1) ++ specRegs b (if c.w64 then 2 else 1) }
    srcs := [src a, src b]
    out := fun c1 vals =>
      let va := vals.getD 0 fun _ => 0
      let vb := vals.getD 1 fun _ => 0
      if uni then
        (c1.setCc (holds (va 0) (vb 0))).setPred p c1.f.mask (if holds (va 0) (vb 0) then BitVec.allOnes 32 else 0)
      else c1.setPred p c1.part (maskOf fun l => holds (va l) (vb l)) }

/-- d names a run of `n` registers of the stream. -/
def runOk (c : Ctx) (d : Spec) (n : Nat) : Bool :=
  match d with
  | .v k => c.vecRun k n 1
  | .s k => c.uniRun k n 1
  | _ => false

/-- An instruction that writes a run of `n` registers from d, register k holding `g k` of the lane (R146, R150). -/
def runForm (c : Ctx) (i : Instr) (d : Spec) (a : Src) (n : Nat) (operand mode : Bool)
    (g : Ctx → Nat → Dword → Word) : ReadForm :=
  { i := i
    need := { operand := operand || !c.srcOk (isUni d) a, guard := !isUni d, mode := mode
              regs := specRegs d n ++ specRegs a.spec 1 }
    srcs := [a]
    out := fun c1 vals => (List.range n).foldl (fun c2 k =>
      match d with
      | .v r => c2.setVec (r + k) c1.part fun l => g c1 k ((vals.getD 0 fun _ => 0) l)
      | .s r => c2.setUni (r + k) (g c1 k ((vals.getD 0 fun _ => 0) 0))
      | _ => c2) c1 }

/-- A vote (R153): `g` gives the result from the participants that hold the predicate and all participants. -/
def voteForm (c : Ctx) (i : Instr) (d p : Spec) (cc : Bool) (g : Mask → Mask → Word) : Form :=
  let r := g (c.voters &&& c.rd.pred (predNum p)) c.voters
  { i := i
    need := { operand := !(c.uniRegOk d 1 1 || (cc && d == .p 0)) || !c.predSpec p, guard := true
              regs := specRegs d 1 ++ specRegs p 1 }
    out := if cc then (c.setSpec d r).setCc (r != 0) else c.setSpec d r }

/-- The element that lane l puts into a reduction of register a (R91, R93). -/
def elemAt (c : Ctx) (a : Spec) (l : Nat) : Nat :=
  elemOf (etWidth c.et) 0 (c.laneOf (vecNum a) c.w64 l)

/-- The tree of a wave reduction over the participants (R90, R91, R153). -/
def waveTree (c : Ctx) (a : Spec) (op : Nat) : List (List (Option Nat)) :=
  redTree (redNode c.et op c.ftz c.sat c.rm)
    (lanes.map fun l => if c.voters.getLsbD l then some (elemAt c a l) else none)

/-- The inclusive scan value of lane l (R92). -/
def scanValue (c : Ctx) (a : Spec) (op l : Nat) : Nat :=
  (scanAt (redNode c.et op c.ftz c.sat c.rm) (waveTree c a op) l).getD (redIdentity c.et op)

/-- A reduction or scan that writes `g l` to lane l of d, or `g 0` to a uniform d (R154). -/
def reduceForm (c : Ctx) (i : Instr) (d a : Spec) (op : Nat) (uni : Bool) (m : Mask) (g : Nat → Nat) : Form :=
  { i := i, need := c.redNeed d a op uni, out := c.putLanes d c.w64 m g }

/-- The quad input of lane l (R93): zero where absent, the identity marker where live and not taking part. -/
def quadAt (c : Ctx) (a : Spec) (l : Nat) : Option Nat :=
  if !c.present.getLsbD l then some 0 else if c.helper l || c.part.getLsbD l then some (elemAt c a l) else none

end Sys2Proof.Claims

/-- R141, R142: ICMP and FCMP complete; a uniform compare writes CC and the predicate in the fragment's mask, and
another writes the predicate in the lanes that take part. Their conditions mean, by code, what R141 says. -/
def Obligations.Compares : Prop :=
  (∀ (s : State) (c : Ctx) (k : BitVec 4) (p : BitVec 3) (a b : Spec), s.Issues c →
    ReadsComplete s c [
      compareForm c (.icmp k p a b) (6 ≤ k.toNat) [0, 1, 2, 3, 4] p.toNat a b fun x y => icmpValue c.et k.toNat x y,
      compareForm c (.fcmp k p a b) (13 ≤ k.toNat) [5, 6] p.toNat a b fun x y => fcmpValue c.et k.toNat c.ftz x y]) ∧
  (∀ (et : Nat) (a b : Dword),
    let x := intOf (etSigned et) (etWidth et) (elemOf (etWidth et) 0 a)
    let y := intOf (etSigned et) (etWidth et) (elemOf (etWidth et) 0 b)
    (icmpValue et 0 a b = true ↔ x = y) ∧ (icmpValue et 1 a b = true ↔ x ≠ y) ∧
    (icmpValue et 2 a b = true ↔ x < y) ∧ (icmpValue et 3 a b = true ↔ x ≤ y) ∧
    (icmpValue et 4 a b = true ↔ y < x) ∧ (icmpValue et 5 a b = true ↔ y ≤ x)) ∧
  (∀ (et : Nat) (ftz : Bool) (a b : Dword),
    let f := (etFmt et).getD f32
    let x := f.read ftz (elemOf f.width 0 a)
    let y := f.read ftz (elemOf f.width 0 b)
    (XReal.cmp x y = none ↔ fcmpValue et 7 ftz a b = true) ∧ (XReal.cmp x y ≠ none ↔ fcmpValue et 6 ftz a b = true) ∧
    (XReal.cmp x y = none → (∀ k ∈ [0, 2, 3, 4, 5], fcmpValue et k ftz a b = false) ∧
      ∀ k ∈ [1, 8, 9, 10, 11, 12], fcmpValue et k ftz a b = true) ∧
    (∀ o, XReal.cmp x y = some o →
      (∀ k ∈ [0, 8], fcmpValue et k ftz a b = (o == .eq)) ∧ (fcmpValue et 1 ftz a b = (o != .eq)) ∧
      (∀ k ∈ [2, 9], fcmpValue et k ftz a b = (o == .lt)) ∧ (∀ k ∈ [3, 10], fcmpValue et k ftz a b = (o != .gt)) ∧
      (∀ k ∈ [4, 11], fcmpValue et k ftz a b = (o == .gt)) ∧ (∀ k ∈ [5, 12], fcmpValue et k ftz a b = (o != .lt))))

/-- R146, R150, R152, R153: TIDX and UNPK complete and write one register for each coordinate or element; WRLANE writes
one lane unless it is absent; the votes and ACTM count active lanes that are no helpers, and VANY and VALL write CC as
well. The model's choices (DESIGN CHOICE): a constant that WRLANE reads under a 64-bit element type gives its low 32
bits (log entry 72), and UNPK under FTZ flushes a subnormal that bf16 widens to (log entry 81). -/
def Obligations.LanesAndVotes : Prop :=
  ∀ (s : State) (c : Ctx) (d a b p : Spec) (n : BitVec 4), s.Issues c →
    (c.shapePending n.toNat = false →
      let e := c.context.shapes.getD n.toNat {}
      ReadsComplete s c [
        runForm c (.tidx d a n) d { spec := a, raw := true } e.ndim (!runOk c d (max 1 e.ndim) || e.ndim == 0) false
          fun _ k x => BitVec.ofNat 32 ((e.coords (x.toNat % 2 ^ 32)).getD k 0)]) ∧
    ReadsComplete s c [
      runForm c (.unpk d a) d { spec := a, w64 := c.w64, et := some c.et } (etCount c.et)
        (!runOk c d (etCount c.et)) (badEt c.et [7, 8, 9, 10, 11, 12] || (c.et < 10 && badRm c.mode))
        fun c1 k x =>
          let y := elemOf (etWidth c.et) k x
          if c.et == 7 || c.et == 8 then BitVec.ofNat 32 (f32.write c1.ftz .rne (((etFmt c.et).getD f16).decode y))
          else if c.et == 9 then BitVec.ofNat 32 (f32.write c1.ftz c1.rm (kd8Value (BitVec.ofNat 8 y)))
          else BitVec.ofInt 32 (intOf (etSigned c.et) (etWidth c.et) y)] ∧
    Completes s c [
      { i := .wrlane d a b
        need :=
          { operand := !isVec d || !c.dstOk d 1 || !isUniform a || !c.srcOk true { spec := a, et := some c.et } ||
              !isUniform b || !c.srcOk true { spec := b, raw := true }
            mode := c.constBad a
            regs := specRegs d 1 ++ specRegs a 1 ++ specRegs b 1 }
        out := c.setVec (vecNum d) ((1#32 <<< ((c.uval b).toNat % 32)) &&& c.present) fun _ =>
          (c.value { spec := a, et := some c.et } 0).setWidth 32 },
      voteForm c (.vany d p) d p true fun have' _ => if have' != 0 then 1 else 0,
      voteForm c (.vall d p) d p true fun have' all => if have' == all then 1 else 0,
      voteForm c (.vbal d p) d p false fun have' _ => have',
      { i := .actm d, need := { operand := !c.uniRegOk d 1 1, regs := specRegs d 1 }
        out := c.setSpec d (c.f.mask &&& c.liveNow) }]

/-- R90 to R93, R154: REDW, SCANW and QRED complete with the values of their trees. A single participant passes
unchanged, a NaN's payload and, under FTZ, a subnormal included (DESIGN CHOICE between R69, R70 and R91, log entry 70). -/
def Obligations.Reductions : Prop :=
  ∀ (s : State) (c : Ctx) (d a : Spec) (e : BitVec 1) (o : BitVec 3), s.Issues c →
    Completes s c [
      reduceForm c (.redw d a o) d a o.toNat true c.partLive fun _ =>
        (((waveTree c a o.toNat).getLastD []).getD 0 none).getD (redIdentity c.et o.toNat),
      reduceForm c (.scanw d a e o) d a o.toNat false c.voters fun l =>
        if e == 1#1 then (if l == 0 then redIdentity c.et o.toNat else scanValue c a o.toNat (l - 1))
        else scanValue c a o.toNat l,
      reduceForm c (.qred d a o) d a o.toNat false c.part fun l =>
        let g := redJoin (redNode c.et o.toNat c.ftz c.sat c.rm)
        let x := fun k => quadAt c a (l / 4 * 4 + k)
        (g (g (x 0) (x 1)) (g (x 2) (x 3))).getD (redIdentity c.et o.toNat)]

/-- R90, R92: the last lane of an inclusive scan equals the reduction bit for bit, lane 6 combines the nodes of four,
two and one lanes, and where the combination is associative, lane l holds lanes 0 to l combined in order. -/
def Obligations.ScanCombines : Prop :=
  ∀ (g : Nat → Nat → Nat) (xs : List (Option Nat)),
    let t := redTree g xs
    scanAt g t 31 = (t.getLastD []).getD 0 none ∧
    scanAt g t 6 = redJoin g (redJoin g ((t.getD 2 []).getD 0 none) ((t.getD 1 []).getD 2 none)) (xs.getD 6 none) ∧
    ((∀ x y z, g (g x y) z = g x (g y z)) → xs.length = 32 → ∀ l < 32,
      scanAt g t l = (xs.take (l + 1)).foldl (redJoin g) none)

namespace Sys2Proof.Claims

/-- The instruction moves the issuing fragment to `target`, with the reconvergence stack `stack`: every loop whose
body the target lies outside ends (R115), and nothing else changes. -/
def MovesTo (s : State) (c : Ctx) (i : Instr) (target : Dword) (stack : List StackRec) : Prop :=
  ∃ t k, exec i s = .next t ∧ Only c t k ∧ k.st.regs = c.st.regs ∧ k.f.pc = target ∧ k.f.stack = stack ∧
    k.f.ctl.loops = c.f.ctl.loops.filter (fun l => l.first ≤ target && target ≤ l.last) ∧
    k.f.mask = c.f.mask ∧ k.f.ctl.cc = c.f.ctl.cc ∧ k.f.park = none

/-- The address of a signed word offset from the instruction (R98). -/
def wordsOn (c : Ctx) {n : Nat} (off : BitVec n) : Dword := c.f.pc + 4 * off.signExtend 64

/-- The instruction goes on at `pc` with the active loops `loops`, and nothing else of the machine changes. -/
def GoesOn (s : State) (c : Ctx) (i : Instr) (pc : Dword) (loops : List Loop) : Prop :=
  ∃ t k, exec i s = .next t ∧ Only c t k ∧ k.st.regs = c.st.regs ∧ k.f.pc = pc ∧ k.f.ctl.loops = loops ∧
    k.f.mask = c.f.mask ∧ k.f.stack = c.f.stack ∧ k.f.ctl.cc = c.f.ctl.cc ∧ k.f.park = none

/-- The last body address of a loop of `len` instructions, 0 standing for 256 (R113). -/
def bodyEnd (c : Ctx) (len : BitVec 8) : Dword :=
  c.f.pc + BitVec.ofNat 64 (4 * (if len == 0#8 then 256 else len.toNat))

/-- The fragment at an entry of the stream of `c` in state `t`. -/
def fragAt (c : Ctx) (t : State) (e : Nat) : Option Frag := ((t.wave c.r.wave).stream c.r.slice).frag e

end Sys2Proof.Claims

/-- R107, R108: outside a PMODE window MODE replaces the mode register, and PMODE saves it and opens a window of
n + 1 instructions; neither checks the codes. -/
def Obligations.ModeRegister : Prop :=
  ∀ (s : State) (c : Ctx) (n : BitVec 4) (i : BitVec 17), s.Issues c → c.f.ctl.count = 0 → c.Passes {} →
    (∃ t k, exec (.mode i) s = .next t ∧ Only c t k ∧ k.st.regs = c.st.regs ∧ k.f.ctl.mode = i ∧ k.f.ctl.count = 0 ∧
      k.f.ctl.cc = c.f.ctl.cc ∧ k.f.mask = c.f.mask ∧ k.f.stack = c.f.stack) ∧
    (∃ t k, exec (.pmode n i) s = .next t ∧ Only c t k ∧ k.st.regs = c.st.regs ∧ k.f.ctl.mode = i ∧
      k.f.ctl.restore = c.f.ctl.mode ∧ k.f.ctl.count = n.toNat + 1 ∧
      k.f.ctl.cc = c.f.ctl.cc ∧ k.f.mask = c.f.mask ∧ k.f.stack = c.f.stack)

/-- R113, R115: LOOP and LOOPI skip the body for a count of 0 and else start an innermost loop at the next word;
LBRK ends the innermost loop. -/
def Obligations.Loops : Prop :=
  ∀ (s : State) (c : Ctx) (x : Spec) (n : BitVec 16) (len : BitVec 8), s.Issues c →
    (c.f.ctl.loops.length < 3 → (∀ l ∈ c.f.ctl.loops.head?, bodyEnd c len ≤ l.last) →
      (c.Passes {} →
        (n = 0 → GoesOn s c (.loopi n len) (bodyEnd c len + 4) c.f.ctl.loops) ∧
        (n ≠ 0 → GoesOn s c (.loopi n len) (c.f.pc + 4)
          ({ left := n.setWidth 32, first := c.f.pc + 4, last := bodyEnd c len } :: c.f.ctl.loops))) ∧
      (c.Passes { operand := !c.loopSrcOk x, regs := specRegs x 1 } →
        (c.uval x = 0 → GoesOn s c (.loop x len) (bodyEnd c len + 4) c.f.ctl.loops) ∧
        (c.uval x ≠ 0 → GoesOn s c (.loop x len) (c.f.pc + 4)
          ({ left := c.uval x, first := c.f.pc + 4, last := bodyEnd c len } :: c.f.ctl.loops)))) ∧
    (∀ l t, c.f.ctl.loops = l :: t → c.Passes {} → GoesOn s c .lbrk (l.last + 4) t)

/-- R98, R115, R155, R157: the transfers of control, taken and not taken, with the call records that CALL pushes and
RET pops; none reads the guard. -/
def Obligations.Transfers : Prop :=
  ∀ (s : State) (c : Ctx) (i : BitVec 24) (t : BitVec 1) (i' : BitVec 23) (p : BitVec 3) (i'' : BitVec 21) (a : Spec),
    s.Issues c →
    (c.Passes {} →
      MovesTo s c (.bra i) (wordsOn c i) c.f.stack ∧
      (c.f.ctl.cc = (t == 1#1) → MovesTo s c (.bcc t i') (wordsOn c i') c.f.stack) ∧
      (c.f.ctl.cc ≠ (t == 1#1) → exec (.bcc t i') s = .next c.done) ∧
      (c.f.stack.length < 16 → MovesTo s c (.call i) (wordsOn c i) (.call (c.f.pc + 4) :: c.f.stack)) ∧
      (∀ ret rest, c.f.stack = .call ret :: rest → MovesTo s c .ret ret rest)) ∧
    (c.Passes { operand := !c.predOk p.toNat, regs := [.p p.toNat] } →
      (c.rd.pred p.toNat &&& c.f.mask = 0 →
        MovesTo s c (.bmz p i'') (wordsOn c i'') c.f.stack ∧ exec (.bmnz p i'') s = .next c.done) ∧
      (c.rd.pred p.toNat &&& c.f.mask ≠ 0 →
        MovesTo s c (.bmnz p i'') (wordsOn c i'') c.f.stack ∧ exec (.bmz p i'') s = .next c.done)) ∧
    (c.Passes { operand := !c.uniRegOk a 2 2, regs := specRegs a 2 } → (c.uval64 a).toNat % 4 = 0 →
      MovesTo s c (.jmpr a) (c.uval64 a) c.f.stack)

/-- R38, R114, R156: SPLIT on a predicate that is false in every lane falls through in sequence, on one that is true in
every lane is taken, and on another makes two fragments, of which the one that falls through goes on in sequence, or,
without a free entry, a masked record that runs the taken side first and keeps the address after SPLIT for the other
side. That a SPLIT inside an idempotent region is masked is DEDUCED (log entry 38). -/
def Obligations.Splits : Prop :=
  ∀ (s : State) (c : Ctx) (p : BitVec 3) (off : BitVec 10) (j : BitVec 11), s.Issues c →
    c.Passes { illegal := j == 0#11, operand := !c.predOk p.toNat, regs := [.p p.toNat] } → c.f.stack.length < 16 →
    let join := c.f.pc + 4 * j.setWidth 64
    let taken := wordsOn c off
    let tm := c.f.mask &&& c.rd.pred p.toNat
    let fm := c.f.mask &&& ~~~c.rd.pred p.toNat
    ∃ t, exec (.split p off j) s = .next t ∧ t.memories = s.memories ∧
      (tm = 0 → ∃ f, fragAt c t c.r.entry = some f ∧ f.mask = fm ∧ f.stack = .trivial join :: c.f.stack ∧
        InSequence { c.f with mask := fm, stack := .trivial join :: c.f.stack } f) ∧
      (tm ≠ 0 → fm = 0 → ∃ f, fragAt c t c.r.entry = some f ∧ f.pc = taken ∧ f.mask = tm ∧
        f.stack = .trivial join :: c.f.stack) ∧
      (tm ≠ 0 → fm ≠ 0 → ∀ e, c.st.region = none → c.st.freeEntry = some e → e < c.st.frags.length → ∃ f g id,
        fragAt c t c.r.entry = some f ∧ f.mask = fm ∧ f.stack = .table join id true :: c.f.stack ∧
        InSequence { c.f with mask := fm, stack := .table join id true :: c.f.stack } f ∧
        fragAt c t e = some g ∧ g.pc = taken ∧ g.mask = tm ∧ g.stack = .table join id false :: c.f.stack ∧
        g.ctl.mode = f.ctl.mode ∧ g.ctl.count = f.ctl.count ∧ g.ctl.cc = f.ctl.cc ∧ g.windows = f.windows) ∧
      (tm ≠ 0 → fm ≠ 0 → (c.st.region ≠ none ∨ c.st.freeEntry = none) → ∃ f, fragAt c t c.r.entry = some f ∧
        f.pc = taken ∧ f.mask = tm ∧
        f.stack = .masked join false fm c.f.mask (c.f.pc + 4) c.f.counted.ctl :: c.f.stack)

/-- R39: JOIN acts as NOP without a record of its address on top, ends a trivial record and a masked one whose else
side is done, turns to the else side of a masked record, and parks at a table record until its split fuses. -/
def Obligations.Joins : Prop :=
  ∀ (s : State) (c : Ctx), s.Issues c → c.Passes {} →
    (∀ j t, c.f.stack = .trivial j :: t →
      exec .join s = .next ({ c with f := { c.f with stack := if j = c.f.pc then t else c.f.stack } } : Ctx).done) ∧
    (c.f.stack = [] ∨ (∃ ret t, c.f.stack = .call ret :: t) → exec .join s = .next c.done) ∧
    (∀ j done fm wm resume saved t, c.f.stack = .masked j done fm wm resume saved :: t →
      (j ≠ c.f.pc → exec .join s = .next c.done) ∧
      (j = c.f.pc → done = true → exec .join s =
        .next ({ c with f := { c.f with stack := t, mask := wm &&& c.w.presentIn c.r.slice } } : Ctx).done) ∧
      (j = c.f.pc → done = false → fm &&& c.w.presentIn c.r.slice ≠ 0 →
        ∃ u f, exec .join s = .next u ∧ fragAt c u c.r.entry = some f ∧ f.pc = resume ∧
          f.mask = fm &&& c.w.presentIn c.r.slice ∧ f.ctl = saved.counted ∧
          f.stack = .masked j true fm wm resume saved :: t)) ∧
    (∀ j id fall t, c.f.stack = .table j id fall :: t →
      (j ≠ c.f.pc → exec .join s = .next c.done) ∧
      (j = c.f.pc → (∃ e f, e ≠ c.r.entry ∧ c.st.frag e = some f ∧ f.stack.any (·.isTable id) ∧ f.park ≠ some (.join id)) →
        ∃ u f, exec .join s = .next u ∧ fragAt c u c.r.entry = some f ∧ f.pc = c.f.pc ∧ f.mask = c.f.mask ∧
          f.park = some (.join id)) ∧
      (j = c.f.pc → fall = true →
        (∀ e f, c.st.frag e = some f → e ≠ c.r.entry → f.stack.any (·.isTable id) →
          f.park = some (.join id) ∧ ∀ j' i, f.stack.head? ≠ some (.table j' i true)) →
        ∃ u f, exec .join s = .next u ∧ fragAt c u c.r.entry = some f ∧ f.stack = t ∧ f.park = none ∧
          (∀ l < 32, f.mask.getLsbD l = true ↔ c.f.mask.getLsbD l = true ∨
            ∃ e g, e ≠ c.r.entry ∧ c.st.frag e = some g ∧ g.stack.any (·.isTable id) ∧ g.mask.getLsbD l = true) ∧
          ∀ e g, e ≠ c.r.entry → c.st.frag e = some g → g.stack.any (·.isTable id) → fragAt c u e = none))

/-- R33, R40, R114, R158: EXIT ends the live lanes that take part; a fragment left with a live lane goes on in sequence
with its stack, its mask losing the lanes that are absent then. -/
def Obligations.Exits : Prop :=
  ∀ (s : State) (c : Ctx), s.Issues c → c.Passes { guard := true, noRegion := true } →
    ∃ t, exec .exit s = .next t ∧ t.memories = s.memories ∧
      ((t.wave c.r.wave).stream c.r.slice).exited = c.st.exited ||| c.partLive ∧
      (c.f.mask &&& (c.w.live &&& ~~~(c.st.exited ||| c.partLive)) ≠ 0 → ∃ f, fragAt c t c.r.entry = some f ∧
        f.mask = c.f.mask &&& quadsOf (c.w.live &&& ~~~(c.st.exited ||| c.partLive)) ∧
        f.mask &&& (c.w.live &&& ~~~(c.st.exited ||| c.partLive)) =
          c.f.mask &&& (c.w.live &&& ~~~(c.st.exited ||| c.partLive)) ∧
        InSequence { c.f with mask := f.mask } f) ∧
      (c.f.mask &&& (c.w.live &&& ~~~(c.st.exited ||| c.partLive)) = 0 → c.f.stack = [] → c.st.handler = none →
        fragAt c t c.r.entry = none) ∧
      (c.w.live &&& ~~~(c.st.exited ||| c.partLive) = 0 → ((t.wave c.r.wave).stream c.r.slice).ended = true)

namespace Sys2Proof.Claims

/-- The instruction completes, changing the memory of the module in nothing, and leaves the context `k`. -/
def Leaves (s : State) (c : Ctx) (i : Instr) (P : State → Ctx → Prop) : Prop :=
  ∃ t k, exec i s = .next t ∧ Ctx.of? t c.r = some k ∧ t.memories = s.memories ∧ P t k

/-- The instruction traps with `t`, and has no other effect (R119). -/
def Traps (s : State) (c : Ctx) (i : Instr) (t : Trap) : Prop := exec i s = .next (c.takeTrap t)

/-- The instruction, command or event completes, and `P` holds of the next state. -/
def Gives (s : State) (i : Instr) (P : State → Prop) : Prop := ∃ t, exec i s = .next t ∧ P t

/-! The queues LQ0 to LQ3 and SQ0, SQ1. -/

/-- A load queue or a store queue. -/
def LaneQueue : Spec → Prop
  | .lq _ => True
  | .sq _ => True
  | _ => False

/-- A queue has room for `n` entries more: a load queue has 16 and holds fewer than SLIP that are not dequeued, a store
queue has 8 (R46, R47). -/
def HasRoom (w : Wave) (d : Spec) (n : Nat) : Prop :=
  let q := w.fifo d
  match d with
  | .lq _ => q.entries.length - q.taken < w.slip ∧ q.entries.length + n ≤ 16
  | _ => q.entries.length + n ≤ 8

/-- The oldest entry that is not dequeued, and the queue without it; an open region keeps it (R46, R335). -/
def headOf (q : Fifo) : Option QEntry := q.entries[q.taken]?
def headTaken (c : Ctx) (q : Fifo) : Fifo :=
  if c.st.region.isSome then { q with taken := q.taken + 1 } else { q with entries := q.entries.drop 1 }

/-- What the head of a queue gives, and the wave without it: a filled entry its data, a poisoned one a free value where
a handler takes it (R50). -/
def claimOne (c : Ctx) (w : Wave) (x : Spec) : Option (Vec × Wave) :=
  let rest := w.setFifo x (headTaken c (w.fifo x))
  match headOf (w.fifo x) with
  | none => none
  | some e => match e.st with
    | .filled v => some (v, rest)
    | .poisoned _ _ _ _ _ =>
      if c.st.handler.isSome then some (Vec.build fun l => Config.poisonData c.s.cycle c.r.wave l, rest) else none
    | _ => none

/-- What sources read in their order come to: their values and what is left of the wave, or the first queue whose head
holds no data for them, with that head and what the sources before it left. -/
inductive Claimed
  | got (vals : List (Nat → Dword)) (w : Wave)
  | stuck (x : Spec) (head : Option QEntry) (w : Wave)

def Claimed.add (v : Nat → Dword) : Claimed → Claimed
  | .got vals w => .got (v :: vals) w
  | r => r

/-- The sources in order: each queue named gives its head, and for a 64-bit position two entries, low word first (R46,
R242; the two entries DEDUCED, log entry 10). -/
def claim (c : Ctx) (w : Wave) : List Src → Claimed
  | [] => .got [] w
  | x :: t =>
    if isQueue x.spec then
      match claimOne c w x.spec with
      | none => .stuck x.spec (headOf (w.fifo x.spec)) w
      | some (lo, w1) =>
        if x.w64 then
          match claimOne c w1 x.spec with
          | none => .stuck x.spec (headOf (w1.fifo x.spec)) w1
          | some (hi, w2) => (claim c w2 t).add fun l => pair (lo.lane l) (hi.lane l)
        else (claim c w1 t).add fun l => (lo.lane l).setWidth 64
    else (claim c w t).add (c.value x)

/-- Dequeuing has left `w` of the wave of `c`, and nothing else has changed but the order in which the stream's accesses
come (R226) and the region of the other stream, which it breaks where the entry is of it (R335). -/
structure Dequeues (c c1 : Ctx) (w : Wave) : Prop where
  state : c1.s = c.s
  ref : c1.r = c.r
  frag : c1.f = c.f
  stream : ∃ n, c.st.fence ≤ n ∧ c1.st = { c.st with fence := n }
  wave : c1.w = w ∨ ∃ g, (c.w.stream (otherSlice c.r.slice)).region = some g ∧
    c1.w = w.setStream (otherSlice c.r.slice)
      { c.w.stream (otherSlice c.r.slice) with region := some { g with broken := true } }

/-- The fragment waits at its instruction for a queue. -/
def WaitsQueue (s : State) (c : Ctx) (i : Instr) : Prop :=
  exec i s = .next ({ c with f := { c.f with park := some .queue } } : Ctx).out

/-- Results `r` in `n` words a lane have been reserved and filled at the tail of queue `d`, zero in the lanes that took
no part; every other queue is as in `c1`, and the registers are as before (R46). -/
structure Reserved (c c1 k : Ctx) (d : Spec) (n : Nat) (r : Nat → Dword) : Prop where
  regs : k.st.regs = c.st.regs
  others : ∀ y, y ≠ d → (LaneQueue y ∨ y = .cq) → k.w.fifo y = c1.w.fifo y
  counts : (k.w.fifo d).taken = (c1.w.fifo d).taken ∧ (k.w.fifo d).next = (c1.w.fifo d).next + n
  tail : ∃ es, (k.w.fifo d).entries = (c1.w.fifo d).entries ++ es ∧ es.length = n ∧
    ∀ i e, es[i]? = some e → e.id = (c1.w.fifo d).next + i ∧ ∃ v, e.st = .filled v ∧
      ∀ l < 32, v.lane l = if c.part.getLsbD l then (if i = 0 then loWord (r l) else hiWord (r l)) else 0

end Sys2Proof.Claims

/-- R44, R46 to R48, R50, R51, R159, R161 to R163, R226, R242: the sources of a lane-executed instruction dequeue in their
order, each queue named giving its head (two for a 64-bit position, low word first; DEDUCED, log entry 10); an
instruction with a queue as destination reserves the tail entry and fills it, zero in the lanes that take no part, or
discards its result where the consumer has ended, a store queue's counted. It stalls, with nothing dequeued, on a
full queue, on a load queue that holds SLIP entries and on a head that is not filled; a head that is not even reserved
by a stream that has ended is ILLEGAL_OPERAND; a poisoned head raises QUEUE_POISON with the class, lane, address and PC of its
load, but gives a handler a free value, and a marked one consumes its uncorrectable data. In a coupled launch CQPUT, CQGET and MEET are NOPs, whatever they name; in a decoupled wave
CQPUT reserves the tail of the CQ and fills it, and CQGET takes its head into a uniform register or into the lanes of a
predicate. The first stream to come to a MEET parks, and both go on when the other comes to it; MEET completes at once
when the other stream has ended. Later loads of a stream come after the stores and loads that either stream issued before
a MEET that it has completed. A constant that CQPUT puts under a 64-bit element type gives its low 32 bits (DESIGN
CHOICE, log entry 72). -/
def Obligations.ControlQueue : Prop :=
  (∀ (s : State) (c : Ctx) (d a b : Spec) (e q : BitVec 3) (kind : BitVec 5) (imm : BitVec 16) (la : BitVec 4),
     s.Issues c → c.w.lq.length = 4 → c.w.sq.length = 2 →
     let gone := (c.w.stream (otherSlice c.r.slice)).ended
     ∀ f ∈ laneForms c d a b e q kind imm la, c.Passes (f.op.need c) →
     (∀ vals w, claim c c.w (reads f.op) = .got vals w → ∃ c1, Dequeues c c1 w ∧
       let r := fun l => f.op.f c1 l (vals.map fun v => v l)
       let win := f.op.la.bind fun x => c.window x f.op.protect
       let n := if f.op.w64 then 2 else 1
       (∀ x, d = .v x →
         let c2 := c1.setVec x c.part fun l => loWord (r l)
         exec f.i s = .next ((if f.op.w64 then c2.setVec (x + 1) c.part fun l => hiWord (r l) else c2).done win)) ∧
       (LaneQueue d →
         (gone = true → exec f.i s = .next (({ c1 with
           w := { c1.w with sqdrop := c1.w.sqdrop + match d with | .sq _ => n | _ => 0 } } : Ctx).done win)) ∧
         (gone = false → ¬ HasRoom c1.w d n → WaitsQueue s c f.i) ∧
         (gone = false → HasRoom c1.w d n → (∀ x ∈ (c1.w.fifo d).entries, x.id < (c1.w.fifo d).next) →
           Leaves s c f.i fun _ k => Reserved c c1 k d n r))) ∧
     (∀ x h w, claim c c.w (reads f.op) = .stuck x h w →
       (h = none → gone = false → WaitsQueue s c f.i) ∧
       (h = none → gone = true → Traps s c f.i { cls := .illegalOperand }) ∧
       (∀ y, h = some y →
         (y.st = .unfilled → WaitsQueue s c f.i) ∧
         (∀ cls cause lane addr pc, y.st = .poisoned cls cause lane addr pc → Traps s c f.i
           { cls := .queuePoison, cause := if cls = .protection then cause else 0, lane := lane
             info := BitVec.ofNat 32 cls.code, addr := addr, loadPc := pc }) ∧
         (∀ m, y.st = .marked m → ∃ c1, Dequeues c c1 (w.setFifo x (headTaken c (w.fifo x))) ∧
           exec f.i s = .next (c1.consumed m))))) ∧
  (∀ (s : State) (c : Ctx) (a d : Spec), s.Issues c →
     (c.w.decoupled = false → c.Passes {} →
       exec (.cqput a) s = .next c.done ∧ exec (.cqget d) s = .next c.done ∧ exec .meet s = .next c.done) ∧
     (c.w.decoupled = true →
     (∀ p, a = .p p → c.inA = false → c.predOk p = true → c.Passes { guard := true, regs := [.p p] } →
       ∀ c1 ids, c.reserve .cq 1 = .ok c1 ids →
         exec (.cqput a) s = .next (c1.fillAll .cq ids [Vec.build fun _ => c.rd.pred p &&& c.part]).done) ∧
     (c.inA = false → c.srcOk true { spec := a, et := some c.et } = true → c.constBad a = false →
       c.Passes { regs := specRegs a 1 } → ∀ c1 ids, c.reserve .cq 1 = .ok c1 ids →
         exec (.cqput a) s = .next
           (c1.fillAll .cq ids [Vec.build fun _ => (c.value { spec := a, et := some c.et } 0).setWidth 32]).done) ∧
     (c.inA = true → c.Passes { regs := specRegs d 1 } → ∀ c1 v, c.pop .cq = .got c1 v →
       (∀ n, d = .s n → c.uniOk n = true → exec (.cqget d) s = .next (c1.setUni n (v.lane 0)).done) ∧
       (∀ n, d = .p n → c.predOk n = true → exec (.cqget d) s = .next (c1.setPred n c1.f.mask (v.lane 0)).done)))) ∧
  (∀ (s : State) (c : Ctx), s.Issues c → c.w.decoupled = true → c.st.live.length ≤ 1 → c.Passes {} →
     let o := otherSlice c.r.slice
     let mine : Ctx := { c with st := { c.st with meets := c.st.meets + 1, fence := c.w.seq } }
     ((c.w.stream o).ended = true → exec .meet s = .next mine.done) ∧
     ((c.w.stream o).ended = false → (c.w.stream o).atMeet = none →
       exec .meet s = .next ({ c with f := { c.f with park := some .meet } } : Ctx).out) ∧
     (∀ e f, (c.w.stream o).ended = false → (c.w.stream o).atMeet = some (e, f) →
       let there : Stream := { (c.w.stream o).setFrag e (some (f.counted.advance.fresh c.s.cycle)) with
         meets := (c.w.stream o).meets + 1, fence := c.w.seq }
       exec .meet s = .next ({ mine with w := c.w.setStream o there } : Ctx).done))

/-- R54, R55: GROW, granted, adds registers that read as zero; SHRINK takes the highest away; FRAME and UNFRAME
(R249) move FP by a multiple of 16 that keeps it in range. -/
def Obligations.RegistersAndFrames : Prop :=
  ∀ (s : State) (c : Ctx) (n : BitVec 16) (a : Spec), s.Issues c →
    (c.Passes { illegal := c.inA, operand := !growCount n.toNat } → c.w.vcount + n.toNat ≤ c.w.vmax →
      n.toNat ≤ c.s.freeRegs c.w.core → (∀ w ∈ c.fellows, w.growing = true → c.w.age ≤ w.age) →
      exec (.grow n) s = .next ({ c with
        w := { c.w with vcount := c.w.vcount + n.toNat }
        st := { c.st with regs := { c.st.regs with v := c.st.regs.v ++ List.replicate n.toNat Vec.zero } } } : Ctx).done) ∧
    (c.Passes
        { illegal := c.inA, operand := !growCount n.toNat || c.w.vcount < c.w.vmin + n.toNat
          regs := (List.range n.toNat).map fun i => .v (c.w.vcount - n.toNat + i) } →
      exec (.shrink n) s = .next ({ c with
        s := c.s.updCore c.w.core fun x => { x with shrunk := x.shrunk ++ [(n.toNat, c.s.cycle)] }
        w := { c.w with vcount := c.w.vcount - n.toNat }
        st := { c.st with regs := { c.st.regs with v := c.st.regs.v.take (c.w.vcount - n.toNat) } } } : Ctx).done) ∧
    (c.Passes { operand := !c.uniOrZero a || (c.uval a).toNat % 16 != 0, regs := specRegs a 1 } →
      (c.st.fp + (c.uval a).toNat ≤ c.w.slim →
        exec (.frame a) s = .next ({ c with st := { c.st with fp := c.st.fp + (c.uval a).toNat } } : Ctx).done) ∧
      (c.w.slim < c.st.fp + (c.uval a).toNat → Traps s c (.frame a) { cls := .stackLimit }) ∧
      ((c.uval a).toNat ≤ c.st.fp →
        exec (.unframe a) s = .next ({ c with st := { c.st with fp := c.st.fp - (c.uval a).toNat } } : Ctx).done) ∧
      (c.st.fp < (c.uval a).toNat → Traps s c (.unframe a) { cls := .stackLimit }))

/-- R108, R110, R114, R117, R313, R314: NOP completes in sequence and changes nothing but its fragment, whose PMODE
window, loops and lookahead windows are counted; so does YIELD; IDEM opens a region that records its own address, the
mask, the mode register, CC and the loops, and IDEMX closes it. -/
def Obligations.SequenceAndRegions : Prop :=
  ∀ (s : State) (c : Ctx), s.Issues c → c.Passes {} →
    (∃ t k, exec .nop s = .next t ∧ Only c t k ∧ k.st.regs = c.st.regs ∧ InSequence c.f k.f) ∧
    exec .yield s = .next ({ c with st := { c.st with sinceYield := some 0 } } : Ctx).done ∧
    (c.st.region = none → Leaves s c .idem fun _ k => ∃ g, k.st.region = some g ∧ g.entryPc = c.f.pc ∧
      g.mask = c.f.mask ∧ g.ctl = c.f.ctl ∧ g.broken = false ∧ g.undo = [] ∧ g.entry = c.r.entry ∧
      k.st.regs = c.st.regs ∧ k.f.mask = c.f.mask) ∧
    (c.st.region.isSome = true → Leaves s c .idemx fun _ k => k.st.region = none ∧ k.st.regs = c.st.regs)

/-- R119: of the conditions that an instruction meets, the first in the table's order is reported: ILLEGAL_OP, then
ILLEGAL_OPERAND, then PRIV, then ILLEGAL_MODE, then LOOKAHEAD_VIOLATION, then that of position 7; and nothing else happens.
Where several windows protect the register, the record names the oldest (DESIGN CHOICE, log entry 33). -/
def Obligations.TrapOrder : Prop :=
  ∀ (c : Ctx) (n : Need) (body : Ctx → Act),
    (∀ l ∈ c.w.loads, l.slice = c.r.slice → meets l.writes (c.named n) = false) →
    meets c.owed (c.named n) = false →
    let illegal := n.illegal || (n.noRegion && c.st.region.isSome)
    let operand := n.operand || (n.guard && !c.guardOk)
    (illegal = true → (c.gate n body).state = c.takeTrap { cls := .illegalOp }) ∧
    (illegal = false → operand = true → (c.gate n body).state = c.takeTrap { cls := .illegalOperand }) ∧
    (illegal = false → operand = false → n.priv = true → (c.gate n body).state = c.takeTrap { cls := .priv }) ∧
    (illegal = false → operand = false → n.priv = false → n.mode = true →
      (c.gate n body).state = c.takeTrap { cls := .illegalMode }) ∧
    (illegal = false → operand = false → n.priv = false → n.mode = false →
      (∀ w, c.f.windows.find? (fun w => meets w.regs n.regs) = some w →
        (c.gate n body).state = c.takeTrap { cls := .lookahead, addr := w.pc }) ∧
      ((∀ w ∈ c.f.windows, meets w.regs n.regs = false) →
        (∀ t, n.post = some t → (c.gate n body).state = c.takeTrap t) ∧
        (n.post = none → (c.gate n body).state = (body c).state)))

namespace Sys2Proof.Claims

/-- No long-latency instruction of the stream is under way, and the other stream is in no handler (R112, R332). -/
def Unhindered (c : Ctx) : Prop :=
  (∀ l ∈ c.w.loads, l.slice ≠ c.r.slice) ∧ (∀ x ∈ c.st.live, x.1 ≠ c.r.entry → x.2.underway = false) ∧
  (c.w.stream (otherSlice c.r.slice)).handler = none

end Sys2Proof.Claims

/-- R112, R332: a trap into the handler waits while long-latency instructions of the stream are under way or the other
stream is in its handler. Taking a trap hides s16 to s23, the PC, the mode register with its window, CC, the loops, the stack and FP,
puts the trap record into s16 to s23, clears the mode register, the loops, the stack and the windows, and goes on at
TVEC at the handler's privilege; every other register and the mask stay. -/
def Obligations.TrapEntry : Prop :=
  ∀ (s : State) (c : Ctx) (t : Trap), s.Issues c → t.cls ≠ .poison → c.tvec ≠ 0 → c.st.handler = none →
    (¬ Unhindered c → c.takeTrap t = ({ c with f := { c.f with park := some .stall } } : Ctx).out) ∧
    (Unhindered c → 24 ≤ c.st.regs.s.length → ∃ k, Ctx.of? (c.takeTrap t) c.r = some k ∧
      k.f.pc = c.tvec ∧ k.f.mask = c.f.mask ∧ k.f.ctl.mode = 0 ∧ k.f.ctl.count = 0 ∧ k.f.ctl.loops = [] ∧
      k.f.stack = [] ∧ k.f.windows = [] ∧ k.f.hold = none ∧
      k.st.handler = some { entry := c.r.entry, regs := (List.range 8).map fun i => c.st.regs.uni (16 + i),
                            pc := c.f.pc, ctl := c.f.ctl, stack := c.f.stack, fp := c.st.fp } ∧
      k.st.regs.uni64 16 = c.f.pc ∧
      (k.st.regs.uni 18).toNat = t.cls.code + 256 * (t.cause % 16) + 4096 * (t.lane % 32) +
        (if c.inA then 2 ^ 17 else 0) ∧
      k.st.regs.uni 19 = t.info ∧ k.st.regs.uni64 20 = t.addr ∧
      (if t.cls = .queuePoison then k.st.regs.uni64 22 = t.loadPc
        else k.st.regs.uni 22 = c.w.eseq ∧ k.st.regs.uni 23 = t.mask) ∧
      (∀ n, n < 16 ∨ 24 ≤ n → k.st.regs.uni n = c.st.regs.uni n) ∧
      k.st.regs.v = c.st.regs.v ∧ k.st.regs.p = c.st.regs.p ∧ k.st.fp = c.st.fp)

/-- R331, R332, R339: without a handler entry, and in a handler, a trap ends the launch with an error record and no
other launch; POISON ends the context whatever TVEC holds. The launch stops issuing at once; what the end does beyond the
core waits until the trap has settled (DEDUCED, log entry 83), and the launch has ended once its copies have drained. -/
def Obligations.TrapEndsLaunch : Prop :=
  (∀ (s : State) (c : Ctx) (t : Trap), s.Issues c → c.launchId < s.launches.length → c.launch.phase = .running →
    c.block.shadow = false →
    let u := c.takeTrap t
    let ends := fun (kind : Nat) (ctx : Bool) =>
      (u.launch c.launchId).phase = .ending ∧ (∀ l, l ≠ c.launchId → (u.launch l).phase = (s.launch l).phase) ∧
      ∃ r, (u.launch c.launchId).ending.trap = some (c.w.core, s.cycle, r, ctx) ∧ r.kind = kind ∧
        r.pc = c.f.pc + (if c.inA then 1 else 0) ∧
        r.info = BitVec.ofNat 32 (t.cls.code + 256 * (t.cause % 16)) ∧ (t.site = none → r.addr = t.addr)
    (t.cls ≠ .poison → (c.tvec = 0 ∨ c.st.handler.isSome = true) → ends 8 false) ∧
    (t.cls = .poison → ends 6 true)) ∧
  (∀ (s : State) (lid core at' : Nat) (r : ErrRec) (ctx : Bool), lid < s.launches.length →
    (s.launch lid).phase = .ending → (s.launch lid).ending.trap = some (core, at', r, ctx) →
    (s.cycle < at' + Config.settle → s.goEnd lid = s) ∧
    (at' + Config.settle ≤ s.cycle → (s.launch lid).ending.stopped = false → (∀ k ∈ s.cores, k.copies = []) →
      ((s.goEnd lid).launch lid).phase = .error ∧ r ∈ (s.goEnd lid).maint.log ∧
      (ctx = true → (s.context? (s.launch lid).fn (s.launch lid).asid).isSome = true →
        ((s.goEnd lid).context (s.launch lid).fn (s.launch lid).asid).ended = true)))

/-- R333: TRET goes on at the address in s16:s17 and brings the hidden set back; outside a handler it is ILLEGAL_OP,
and a misaligned address is ALIGN. -/
def Obligations.TrapReturn : Prop :=
  ∀ (s : State) (c : Ctx), s.Issues c → c.Passes { regs := (List.range 8).map fun k => .s (16 + k) } →
    (c.st.handler = none → Traps s c .tret { cls := .illegalOp }) ∧
    (∀ h, c.st.handler = some h → h.entry = c.r.entry →
      ((c.st.regs.uni64 16).toNat % 4 ≠ 0 → Traps s c .tret { cls := .align, addr := c.st.regs.uni64 16 }) ∧
      ((c.st.regs.uni64 16).toNat % 4 = 0 → 24 ≤ c.st.regs.s.length → Leaves s c .tret fun _ k =>
        k.f.pc = c.st.regs.uni64 16 ∧ k.f.mask = c.f.mask ∧ k.f.ctl = h.ctl ∧ k.f.stack = h.stack ∧ k.st.fp = h.fp ∧
        k.st.handler = none ∧ k.f.windows = [] ∧ (∀ i < 8, k.st.regs.uni (16 + i) = h.regs.getD i 0) ∧
        (∀ n, n < 16 ∨ 24 ≤ n → k.st.regs.uni n = c.st.regs.uni n) ∧
        k.st.regs.v = c.st.regs.v ∧ k.st.regs.p = c.st.regs.p))

/-- R99, R118, R315: TRAP completes and is then trapped at the instruction that follows it, BKPT traps at its own
address, an unassigned word is ILLEGAL_OP, and a fault on the fetch is taken at the address fetched. -/
def Obligations.TrapInstructions : Prop :=
  ∀ (s : State) (c : Ctx) (i : BitVec 16) (w : Word) (cause : Nat), s.Issues c →
    (c.Passes {} →
      (c.tvec ≠ 0 → c.st.handler = none → Unhindered c →
        exec (.trap i) s = .next (({ c with f := c.f.counted.advance } : Ctx).takeTrap
          { cls := .swTrap, info := i.setWidth 32 })) ∧
      ((c.tvec = 0 ∨ c.st.handler.isSome = true) → Traps s c (.trap i) { cls := .swTrap, info := i.setWidth 32 }) ∧
      Traps s c .bkpt { cls := .bkpt }) ∧
    Traps s c (.unassignedOpcode w) { cls := .illegalOp } ∧
    Traps s c (.fetchFault (.protection cause)) { cls := .protection, cause := cause, addr := c.f.pc } ∧
    Traps s c (.fetchFault .poison) { cls := .poison, site := c.fetchSite }

/-- R304 to R306, R347: TIME reads VTIME, or at host privilege real ticks; TARM sets its timer, which fires at once
where the deadline has passed; TWAIT gives 0 for a timer that has fired and 1 for one that is not armed. -/
def Obligations.Timers : Prop :=
  ∀ (s : State) (c : Ctx) (d a b : Spec), s.Issues c →
    (c.Passes { operand := !c.uniRegOk d 2 2, regs := specRegs d 2 } →
      exec (.time d 0#1) s = .next (c.setSpec64 d (BitVec.ofNat 64 c.context.vns)).done ∧
      (2 ≤ c.priv → exec (.time d 1#1) s = .next (c.setSpec64 d (BitVec.ofNat 64 c.s.ticks)).done) ∧
      (c.priv < 2 → Traps s c (.time d 1#1) { cls := .priv })) ∧
    (c.Passes
        { operand := !c.uniRegOk d 1 1 || !c.uniSrcOk a || 3 < (c.uval a).toNat, regs := specRegs d 1 ++ specRegs a 1 } →
      let t := c.context.timers.getD (c.uval a).toNat {}
      (t.fired = true → exec (.twait d a) s = .next (c.setSpec d 0).done) ∧
      (t.fired = false → t.armed = false → c.f.park ≠ some (.timer (c.uval a).toNat true) →
        exec (.twait d a) s = .next (c.setSpec d 1).done)) ∧
    (∀ h, c.Settled h → (s.context? c.fn c.asid).isSome = true → (c.uval a).toNat % 4 < c.context.timers.length →
      Leaves s c (.tarm a b) fun t _ =>
        let n := (c.uval a).toNat % 4
        let x := (t.context c.fn c.asid).timers.getD n {}
        let due := c.uval64 b ≠ 0 ∧ (c.uval64 b).toNat ≤ c.context.vns
        x.deadline = c.uval64 b ∧ x.te = (c.uval a).getLsbD 2 ∧ x.owner = some (c.r.wave, c.r.slice) ∧
        (due → x.armed = false ∧ x.fired = true) ∧
        (¬ due → x.armed = (c.uval64 b != 0) ∧ x.fired = false))

/-- R47, R316, R317, R332: PMRD reads a counter in bits 62 to 0 with the OVERLAP flag above, SYSR the register that its
number names at a privilege that may read it; a lower privilege traps. That a register with no read privilege, HINV's
among them, is ILLEGAL_OPERAND is DEDUCED (log entry 41). SYSW writes the register that its number names
when it has settled; SLIP takes 1 to 16, the low word of TVEC takes effect with the high word, and a rejected value is
ILLEGAL_OPERAND. -/
def Obligations.SpecialRegisters : Prop :=
  (∀ (s : State) (c : Ctx) (d a : Spec), s.Issues c →
    (c.Passes
        { operand := !c.uniRegOk d 2 2 || !c.uniSrcOk a || 31 < (c.uval a).toNat, regs := specRegs d 2 ++ specRegs a 1 } →
      exec (.pmrd d a) s = .next (c.setSpec64 d (BitVec.ofNat 64
        (c.context.counters.getD (c.uval a).toNat 0 % 2 ^ 63 +
          (if claimBit c.context.claims 3 ((c.uval a).toNat / 8) then 2 ^ 63 else 0)))).done) ∧
    (∀ p, sysReadPriv (c.uval a).toNat = some p →
      c.Passes { operand := !c.uniRegOk d 1 1 || !c.uniSrcOk a, regs := specRegs d 1 ++ specRegs a 1 } →
      (p ≤ c.priv → exec (.sysr d a) s = .next (c.setSpec d (c.readSys (c.uval a).toNat)).done) ∧
      (c.priv < p → Traps s c (.sysr d a) { cls := .priv })) ∧
    (sysReadPriv (c.uval a).toNat = none →
      c.Passes { regs := specRegs d 1 ++ specRegs a 1 } → Traps s c (.sysr d a) { cls := .illegalOperand })) ∧
  (∀ (s : State) (c : Ctx) (h : Hold) (a b : Spec), s.Issues c → c.Settled h →
    (∀ k, c.writeSys (c.uval a).toNat (c.uval b) = some k → exec (.sysw a b) s = .next k.done) ∧
    (c.writeSys (c.uval a).toNat (c.uval b) = none → Traps s c (.sysw a b) { cls := .illegalOperand }) ∧
    ((c.uval a).toNat = 0 → 1 ≤ (c.uval b).toNat → (c.uval b).toNat ≤ 16 → Leaves s c (.sysw a b) fun _ k =>
      k.w.slip = (c.uval b).toNat) ∧
    ((c.uval a).toNat = 0x1A0 → (s.context? c.fn c.asid).isSome = true → Leaves s c (.sysw a b) fun t _ =>
      (t.context c.fn c.asid).tvecPend = c.uval b ∧ (t.context c.fn c.asid).tvecLo = c.context.tvecLo ∧
      (t.context c.fn c.asid).tvecHi = c.context.tvecHi) ∧
    ((c.uval a).toNat = 0x1A1 → (s.context? c.fn c.asid).isSome = true →
      let v := (pair c.context.tvecPend (c.uval b)).toNat
      v % 4 = 0 → v < Config.addressTop → Leaves s c (.sysw a b) fun t _ =>
        (t.context c.fn c.asid).tvecLo = c.context.tvecPend ∧ (t.context c.fn c.asid).tvecHi = c.uval b))

/-- R262, R294, R310, R316: CSTAT reads and clears the commit status word, THCHK reads a handle entry of its launch,
SUCC sets a successor pointer, and MARK emits a trace record of the ESEQ at its issue. -/
def Obligations.StatusAndMarks : Prop :=
  ∀ (s : State) (c : Ctx) (h : Hold) (d a b : Spec), s.Issues c →
    (c.Passes { operand := !c.uniRegOk d 1 1, regs := specRegs d 1 } → c.st.committing c.r.entry = false →
      exec (.cstat d) s = .next (({ c with w := { c.w with conflict := false, spilled := false } } : Ctx).setSpec d
        ((if c.w.conflict then 1 else 0) + (if c.w.spilled then 2 else 0))).done) ∧
    (c.Passes { operand := !c.uniRegOk d 1 1 || !c.uniRegOk a 1 1, regs := specRegs d 1 ++ specRegs a 1 } →
      let x := (c.uval a).toNat % 65536
      let e := c.coreState.handle (hIdx x)
      exec (.thchk d a) s = .next (c.setSpec d
        (if e.alloc && e.launch == c.launchId then BitVec.ofNat 32 ((if e.current x then 1 else 0) +
          (if e.pend then 2 else 0) + 4 + 256 * min e.users 127 + 65536 * (e.gen % 64)) else 0)).done) ∧
    (c.Settled h → c.launchId < s.launches.length → c.blockId < s.blocks.length → Leaves s c (.succ a b) fun t _ =>
      (t.launch c.launchId).packet.succ = c.launch.packet.succ.set (c.uval a).toNat (c.uval64 b) ∧
      (t.block c.blockId).external = true) ∧
    (c.Settled h →
      let t := c.s.trace c.fn c.asid 1 c.w.core h.eseq c.f.pc ((c.uval a).setWidth 64)
      exec (.mark a) s = .next ({ c with s := t } : Ctx).done)


namespace Sys2Proof.Claims

/-! Lane accesses. -/

/-- A lane access as its rule forms it, and whether a code of it is unassigned. -/
structure AccForm where
  i : Instr
  q : LaneAcc
  illegal : Bool := false

/-- The plain loads that return later; `z` is the size code (R250 to R252, R257). -/
def loadForms (x a : Spec) (la : BitVec 4) (k z : BitVec 2) : List AccForm :=
  let q := fun (sp : AccSpace) =>
    ({ x := x, a := a, size := 2 ^ z.toNat, space := sp, regs := regsOf (2 ^ z.toNat), la := la } : LaneAcc)
  [ { i := .lds x a la k z, q := q (.scratch k.toNat) },
    { i := .ldt x a la k z, q := q (.typed (bufOf k)), illegal := k == 3#2 },
    { i := .ldd x a la k z, q := q (.dev k.toNat) },
    { i := .lddw x a la k, q := { x := x, a := a, size := 16, space := .dev k.toNat, regs := 4, la := la } },
    { i := .ldh x a la k z, q := q (.host k.toNat) }]

/-- The plain stores (R250 to R252, R257, R258). -/
def storeForms (x a : Spec) (la : BitVec 4) (k z : BitVec 2) : List AccForm :=
  let q := fun (sp : AccSpace) =>
    ({ x := x, a := a, size := 2 ^ z.toNat, space := sp, wr := true, regs := regsOf (2 ^ z.toNat), la := la } : LaneAcc)
  [ { i := .sts x a la k z, q := q (.scratch k.toNat) },
    { i := .stt x a la k z, q := q (.typed (bufOf k)), illegal := k == 3#2 },
    { i := .std x a la k z, q := q (.dev k.toNat) },
    { i := .stdw x a la k
      q := { x := x, a := a, size := 16, space := .dev k.toNat, wr := true, regs := 4, la := la } },
    { i := .sth x a la k z, q := q (.host k.toNat) },
    { i := .stx x a la z, q := q .peer }]

/-- The access of LDP, or of STP, at FP plus n data (R248). -/
def privAcc (x : Spec) (n : BitVec 8) (la : BitVec 4) (z : BitVec 2) (wr : Bool) : LaneAcc :=
  { x := x, a := .ic 0, size := 2 ^ z.toNat, space := .priv (n.toNat * 2 ^ z.toNat), wr := wr
    regs := regsOf (2 ^ z.toNat), la := la }

/-- Word i of a datum of `z` bytes: 8- and 16-bit data are extended to 32 bits (R243). -/
def loadWord (z : Nat) (signed : Bool) (bs : List Byte) (i : Nat) : Word :=
  let v := natOfBytes bs
  if z < 4 then
    if i ≠ 0 then 0
    else if signed ∧ 2 ^ (8 * z - 1) ≤ v then BitVec.ofNat 32 (v + 2 ^ 32 - 2 ^ (8 * z)) else BitVec.ofNat 32 v
  else if i < z / 4 then BitVec.ofNat 32 (natOfBytes ((bs.drop (4 * i)).take 4)) else 0

/-- The checks of a load pass, its address operand can be read, and its entries are reserved: the context that reads
left, the lanes' addresses, and the entries. -/
structure LoadRuns (c : Ctx) (q : LaneAcc) (illegal : Bool) (c1 c2 : Ctx) (av : Nat → Dword) (ids : List Nat) :
    Prop where
  fresh : c.f.hold = none
  passes : c.Passes (q.need c (c.loadXOk q.x q.regs) illegal (badEt c.et anyEt))
  address : if q.hasA then c.readAll [q.aSrc] = .ok c1 [av] else c1 = c ∧ av = fun _ => 0
  entries : c1.loadEntries q = .ok c2 ids

/-- The checks of a store pass and its operands can be read. -/
structure StoreRuns (c : Ctx) (q : LaneAcc) (illegal : Bool) (c1 : Ctx) (av : Nat → Dword)
    (ws : List (Nat → Dword)) : Prop where
  passes : c.Passes { q.need c (c.storeXOk q) illegal false with
    noRegion := match q.space with | .priv _ => true | _ => false }
  operands : if q.hasA then c.readAll (q.aSrc :: q.words) = .ok c1 (av :: ws)
    else c.readAll q.words = .ok c1 ws ∧ av = fun _ => 0

end Sys2Proof.Claims

/-- R245 to R247, R250 to R252, R257: a plain load whose lanes pass every check issues and is in flight with its
addresses; where a lane fails, the load traps, or an address-slice load into a queue poisons the entries it reserved
(R50). -/
def Obligations.LoadsIssue : Prop :=
  ∀ (s : State) (c c1 c2 : Ctx) (x a : Spec) (la : BitVec 4) (k z : BitVec 2) (av : Nat → Dword) (ids : List Nat),
    s.Issues c → ∀ f ∈ loadForms x a la k z, LoadRuns c f.q f.illegal c1 c2 av ids →
    let win := c.window la f.q.protect
    (∀ xs, c1.scan f.q av = .ok xs →
      let c3 := ((c2.fillTlbs xs).watched false xs).externalIf (f.q.leaves && !xs.isEmpty)
      let ld : Load :=
        { id := c3.w.seq, slice := c3.r.slice, pc := c.f.pc, issued := c3.s.cycle, dest := loadDest x ids
          size := f.q.size, signed := c3.et == 1 || c3.et == 3, lanes := xs
          part := if f.q.uni then 1#32 else c3.part, entry := c3.r.entry, fence := c3.st.fence
          eseq := c3.w.eseq }
      exec f.i s = .next (({ c3 with
        w := { c3.w with loads := c3.w.loads ++ [ld], seq := c3.w.seq + 1 } } : Ctx).done win)) ∧
    (∀ t, c1.scan f.q av = .trap t →
      (c1.inA = true → isQueue x = true →
        exec f.i s = .next ((c2.mark f.q ids (.poisoned t.cls t.cause t.lane t.addr c.f.pc)).done win)) ∧
      ((c1.inA && isQueue x) = false → Traps s c f.i t))

/-- R165, R172, R173, R200, R243, R245, R248: once the lines of its words stand in the stack cache, LDP delivers at once, the
stores of the wave that have not settled included, and STP's stores wait for their settle window; where the backing of a
line has no translation both park on it; outside the stack limit both trap with STACK_LIMIT. The line of a word that is
not in the stack cache comes from 128 bytes of the wave's backing in device memory and is the one last used; a full cache
first gives up the line used longest ago that no unsettled store needs, written back where a store has changed it, so that
it never holds more than 64 lines; the layout of the backing in lines of 128 bytes and the line given up are the model's
(DESIGN CHOICE, log entry 34), as is that the private bytes of a uniform x are lane 0's (DESIGN CHOICE, log entry 80).
A line keeps the poison marks of its sectors, and a load of a marked byte consumes it
(R396, R397). A settled byte goes to its line, and every other private byte keeps its value. -/
def Obligations.PrivateAccesses : Prop :=
  (∀ (s : State) (c c1 c2 : Ctx) (x : Spec) (n : BitVec 8) (la : BitVec 4) (z : BitVec 2), s.Issues c →
     (let q := privAcc x n la z false;
       c.f.hold = none → c.Passes (q.need c (c.loadXOk q.x q.regs) false (badEt c.et anyEt)) →
       (∀ xs ids, c.scan q (fun _ => 0) = .ok xs → c.stack q (.ok xs) = (c1, .ok xs) → c1.loadEntries q = .ok c2 ids →
         let c3 := (c2.fillTlbs xs).watched false xs
         let g := fun (i l : Nat) => match xs.find? (·.lane == l) with
           | some y => loadWord q.size (c3.et == 1 || c3.et == 3)
               ((List.range q.size).map fun k => c3.w.privByte (y.addr + k)) i
           | none => 0
         let marked := (xs.any fun y => (List.range q.size).any fun k => c3.w.privMarked (y.addr + k)) = true
         (¬ marked → exec (.ldp x n la z) s = .next ((c3.deliver q ids g).done (c.window la q.protect))) ∧
         (marked → (c.inA && isQueue x) = false → ∃ a, c3.w.privMarked a = true ∧
           exec (.ldp x n la z) s = .next (c.consumed (c3.privSite a)))) ∧
       (∀ xs va, c.scan q (fun _ => 0) = .ok xs → c.stack q (.ok xs) = (c1, .miss va) → (c.inA && isQueue x) = false →
         exec (.ldp x n la z) s = .next (c.parkXlate va false).state) ∧
       (∀ t, c.scan q (fun _ => 0) = .trap t → (c.inA && isQueue x) = false → Traps s c (.ldp x n la z) t)) ∧
     (∀ ws, StoreRuns c (privAcc x n la z true) false c1 (fun _ => 0) ws →
       let q := privAcc x n la z true
       (∀ xs cs, c1.scan q (fun _ => 0) = .ok xs → c1.stack q (.ok xs) = (cs, .ok xs) →
         let c2 := (cs.fillTlbs xs).watched true xs
         let p : PrivPend :=
           { seq := c2.w.seq, issued := c2.s.cycle, slice := c2.r.slice
             bytes := xs.flatMap fun y => (storeBytes q.size ws y.lane).mapIdx fun i b => (y.addr + i, b) }
         exec (.stp x n la z) s = .next (({ c2 with
           w := { c2.w with privPend := c2.w.privPend ++ [p], seq := c2.w.seq + 1 } } : Ctx).done
             (c.window la q.protect))) ∧
       (∀ xs cs va, c1.scan q (fun _ => 0) = .ok xs → c1.stack q (.ok xs) = (cs, .miss va) →
         exec (.stp x n la z) s = .next (c.parkXlate va true).state) ∧
       (∀ t, c1.scan q (fun _ => 0) = .trap t → Traps s c (.stp x n la z) t)) ∧
     (∀ q : LaneAcc, ∀ off l v, q.space = .priv off → c.w.slim < c.st.fp + off + q.size →
       c.laneOut q v l = .bad 2 { cls := .stackLimit, lane := l, addr := BitVec.ofNat 64 (c.st.fp + off) })) ∧
  (∀ (c : Ctx) (word : Nat), c.block.shadow = false →
    (∀ k, c.w.cache.find? (·.word == word) = some k →
      c.stackLine word = .ok { c with w := { c.w with cache := k :: c.w.cache.filter (·.word != word) } }) ∧
    (∀ pa, c.w.cache.find? (·.word == word) = none → c.w.cache.length < 64 →
      c.s.translate (some c.w.core) c.fn c.asid { write := false, priv := 2 } (c.backAt word) = .ok pa →
      ∃ c1, c.stackLine word = .ok c1 ∧ c1.s.memories = c.s.memories ∧
        ∃ k : StackLine, c1.w = { c.w with cache := k :: c.w.cache } ∧ k.word = word ∧ k.dirty = false ∧
          k.bytes = c.s.readBytes .dev pa 128 ∧
          ∀ j < 4, (j ∈ k.marked ↔ c.s.poisoned .dev (pa + 32 * j) = true)) ∧
    (∀ k pk c0, c.w.cache.find? (·.word == word) = none → c.w.cache.length = 64 →
      c.w.cache.reverse.find? (fun k => !c.w.pinned k) = some k →
      (k.dirty = true →
        c.s.translate (some c.w.core) c.fn c.asid { write := true, priv := 2 } (c.backAt k.word) = .ok pk) →
      c0 = { c with
        s := if k.dirty then c.s.writeLine pk k else c.s
        w := { c.w with cache := c.w.cache.filter (·.word != k.word) } } →
      c.stackLine word = c0.stackLine word) ∧
    (∀ c1, c.w.cache.length ≤ 64 → c.stackLine word = .ok c1 → c1.w.cache.length ≤ 64)) ∧
  (∀ (w : Wave) (k : StackLine) (a : Nat) (v : Byte), w.privPend = [] → a < 32 * 2 ^ 18 →
    w.cache.find? (·.word == privWord a) = some k → k.bytes.length = 128 →
    (w.setPriv a v).privByte a = v ∧ ∀ b < 32 * 2 ^ 18, b ≠ a → (w.setPriv a v).privByte b = w.privByte b)

namespace Sys2Proof.Claims

/-- Word i of lane l of what a load in flight reads of `u` (R204, R243); zero in a lane that accesses nothing. -/
def loadedWord (u : State) (w : Nat) (ld : Load) (i l : Nat) : Word :=
  match ld.lanes.find? (·.lane == l) with
  | some x => loadWord ld.size ld.signed (u.loadBytes w (some ld.id) x.place x.addr ld.size).1 i
  | none => 0

/-- The 48 bytes of a shape entry, in the order of the lanes that read them (R145). -/
def loadedShape (u : State) (w : Nat) (ld : Load) : List Byte :=
  ld.lanes.flatMap fun x => (u.loadBytes w (some ld.id) x.place x.addr ld.size).1

/-- Some byte that a load reads of `u` lies in the poisoned sector `m`. -/
def ReadsPoison (u : State) (w : Nat) (ld : Load) (m : SecKey) : Prop :=
  ∃ x ∈ ld.lanes, ∃ k < ld.size, (u.loadByte w (some ld.id) x.place (x.addr + k)).2 = true ∧
    m = { place := x.place, idx := (x.addr + k) / 32 }

/-- A load of wave `w` has left its wave, and changed no memory, no other wave and neither its other stream nor its CQ. -/
structure Returned (u t : State) (w : Nat) (ld : Load) : Prop where
  memories : t.memories = u.memories
  others : ∀ v, v ≠ w → t.waves[v]? = u.waves[v]?
  loads : (t.wave w).loads = (u.wave w).loads.filter (·.id != ld.id)
  other : (t.wave w).stream (otherSlice ld.slice) = (u.wave w).stream (otherSlice ld.slice)
  control : (t.wave w).cq = (u.wave w).cq

/-- The load and store queues of a wave. -/
def dataQueues (w : Wave) : List Fifo × List Fifo := (w.lq, w.sq)

/-- The entries `ids` of queue `x` have changed as `P` says of each by its position among them, and nothing else of the
queues and of the wave's streams has. -/
structure EntriesFilled (w w' : Wave) (x : Spec) (ids : List Nat) (P : Nat → QState → Prop) : Prop where
  streams : ∀ sl, w'.stream sl = w.stream sl
  others : ∀ y, y ≠ x → LaneQueue y → w'.fifo y = w.fifo y
  counts : (w'.fifo x).taken = (w.fifo x).taken ∧ (w'.fifo x).next = (w.fifo x).next ∧
    (w'.fifo x).entries.length = (w.fifo x).entries.length
  entries : ∀ (k : Nat) (e : QEntry), (w.fifo x).entries[k]? = some e → ∃ e' : QEntry, (w'.fifo x).entries[k]? = some e' ∧ e'.id = e.id ∧
    e'.seq = e.seq ∧ (e.id ∉ ids → e' = e) ∧ ∀ i, ids[i]? = some e.id → P i e'.st

end Sys2Proof.Claims

/-- R46, R51, R145, R226, R234, R243, R245, R335: a load waits for the earlier loads of its wave that read one of its
bytes, and for what the order of the streams puts before it: earlier loads, and instructions that the other stream holds. Then it
reads its bytes, once the strong stores of its wave to them have left the egress queues (DEDUCED, log entry 79), each
datum extended as R243 says: it writes the vector registers that it named in the lanes that took part, or the uniform
register or pair, or fills the queue entries that it reserved, zero in the lanes that took no part, or the entry of the shape
table, which has no dimension where R145 finds the bytes bad; every other register, queue entry and shape entry and all
memory stay. A poisoned byte marks the entries that it reserved; a load into registers or the shape table consumes it at its
own PC, and where it was issued in the open region that region restarts. -/
def Obligations.LoadReturns : Prop :=
  (∀ (s : State) (w id : Nat) (ld : Load), (s.wave w).loads.find? (·.id == id) = some ld →
    ((∃ x ∈ (s.wave w).loads, x.id < ld.id ∧ (x.id < ld.fence ∨ x.overlaps ld = true)) ∨
      s.behind w ld.slice ld.fence = true) → exec (.loadReturn w id) s = .next s) ∧
  ∀ (s : State) (w id : Nat) (ld : Load), w < s.waves.length → (s.wave w).loads.find? (·.id == id) = some ld →
    (∀ x ∈ (s.wave w).loads, x.id < ld.id → ld.fence ≤ x.id ∧ x.overlaps ld = false) →
    s.behind w ld.slice ld.fence = false →
    let u := s.flushFor w ld
    let st := (u.wave w).stream ld.slice
    let fn := (u.launch (u.launchOf w)).fn
    let asid := (u.launch (u.launchOf w)).asid
    let k := regsOf ld.size
    u.waves = s.waves ∧ ((∀ e ∈ s.egress, e.wave ≠ w) → u = s) ∧
    ((∀ m, ¬ ReadsPoison u w ld m) →
      (∀ n, ld.dest = .vec n → n + k ≤ st.regs.v.length → Gives s (.loadReturn w id) fun t => Returned u t w ld ∧
        dataQueues (t.wave w) = dataQueues (u.wave w) ∧
        ∃ r : Regs, (t.wave w).stream ld.slice = { st with regs := r } ∧ r.s = st.regs.s ∧ r.p = st.regs.p ∧
          (∀ i < k, ∀ l < 32, (r.vec (n + i)).lane l =
            if ld.part.getLsbD l then loadedWord u w ld i l else (st.regs.vec (n + i)).lane l) ∧
          ∀ m, m < n ∨ n + k ≤ m → r.vec m = st.regs.vec m) ∧
      (∀ n, ld.dest = .uni n → n + k ≤ st.regs.s.length → Gives s (.loadReturn w id) fun t => Returned u t w ld ∧
        dataQueues (t.wave w) = dataQueues (u.wave w) ∧
        ∃ r : Regs, (t.wave w).stream ld.slice = { st with regs := r } ∧ r.v = st.regs.v ∧ r.p = st.regs.p ∧
          (∀ i < k, r.uni (n + i) = loadedWord u w ld i 0) ∧ ∀ m, m < n ∨ n + k ≤ m → r.uni m = st.regs.uni m) ∧
      (∀ x ids, LaneQueue x → ld.dest = loadDest x ids → ids.Nodup → (u.wave w).lq.length = 4 → (u.wave w).sq.length = 2 →
        Gives s (.loadReturn w id) fun t => Returned u t w ld ∧
          EntriesFilled (u.wave w) (t.wave w) x ids fun i q => ∃ v, q = .filled v ∧
            ∀ l < 32, v.lane l = if ld.part.getLsbD l then loadedWord u w ld i l else 0) ∧
      (∀ n x, ld.dest = .shape n → u.context? fn asid = some x → n < x.shapes.length →
        Gives s (.loadReturn w id) fun t => Returned u t w ld ∧ dataQueues (t.wave w) = dataQueues (u.wave w) ∧
          (t.wave w).stream ld.slice = st ∧
          let bs := loadedShape u w ld
          let word := fun (o : Nat) => BitVec.ofNat 32 (natOfBytes ((bs.drop o).take 4))
          let nd := (bs.getD 45 0).toNat
          ∃ e : Shape, (t.context fn asid).shapes = x.shapes.set n e ∧
            (∀ i < 5, e.e.getD i 0 = word (4 * i) ∧ e.m.getD i 0 = word (20 + 4 * i) ∧ e.sh.getD i 0 = bs.getD (40 + i) 0) ∧
            e.ndim = if nd = 0 ∨ 5 < nd ∨ ((List.range nd).any fun i => e.e.getD i 0 == 0) then 0 else nd)) ∧
    ((∃ m, ReadsPoison u w ld m) →
      (∀ x ids, LaneQueue x → ld.dest = loadDest x ids → ids.Nodup → (u.wave w).lq.length = 4 → (u.wave w).sq.length = 2 →
        Gives s (.loadReturn w id) fun t => Returned u t w ld ∧
          EntriesFilled (u.wave w) (t.wave w) x ids fun _ q => ∃ m, ReadsPoison u w ld m ∧ q = .marked (some m)) ∧
      ((∀ q ids, ld.dest ≠ .queue q ids) → (st.frag ld.entry).isSome = true → ∃ v c m, ReadsPoison u w ld m ∧
        { v with contexts := u.contexts } = u.updWave w (fun y => { y with loads := y.loads.filter (·.id != id) }) ∧
        Ctx.of? v { wave := w, slice := ld.slice, entry := ld.entry } = some c ∧
        let c' : Ctx := { c with f := { c.f with pc := ld.pc } }
        ((∃ g, st.region = some g ∧ g.opened ≤ ld.id) →
          exec (.loadReturn w id) s = .next (c'.consumed (some m) (some ld.eseq))) ∧
        ((∀ g, st.region = some g → ld.id < g.opened) →
          exec (.loadReturn w id) s = .next
            (c'.takeTrap { cls := .poison, site := some m, eseq := some ld.eseq }))))

/-- R206, R245, R246, R250 to R252, R257, R258, R259: a plain store whose lanes pass every check issues: the low bytes of x
enter the wave's buffer for each lane, those of a peer store by ascending node; without room for all of them it waits;
where a lane fails, it traps and stores nothing. -/
def Obligations.StoresIssue : Prop :=
  ∀ (s : State) (c c1 : Ctx) (x a : Spec) (la : BitVec 4) (k z : BitVec 2) (av : Nat → Dword)
    (ws : List (Nat → Dword)), s.Issues c → ∀ f ∈ storeForms x a la k z, StoreRuns c f.q f.illegal c1 av ws →
    let win := c.window la f.q.protect
    (∀ xs, c1.scan f.q av = .ok xs →
      let c2 := ((c1.fillTlbs xs).watched true xs).externalIf (f.q.leaves && !xs.isEmpty)
      let ls : List LaneStore := (f.q.replayed xs).map fun y =>
        { lane := y.lane, place := y.place, addr := y.addr, va := y.va
          bytes := (ws.flatMap fun w => bytesOfWord ((w y.lane).setWidth 32)).take f.q.size }
      (xs = [] → exec f.i s = .next (c2.done win)) ∧
      (xs ≠ [] → ∀ t, c2.out.store c2.r.wave c2.r.slice c2.st.region.isSome ls = some t →
        exec f.i s = .next ((c2.reload t).done win)) ∧
      (xs ≠ [] → c2.out.store c2.r.wave c2.r.slice c2.st.region.isSome ls = none →
        exec f.i s = .next ({ c with f := { c.f with park := some .full } } : Ctx).out)) ∧
    (∀ t, c1.scan f.q av = .trap t → Traps s c f.i t)

/-- R204, R206, R207: once a store with room in its wave's buffer is made, the wave reads from every byte that it stored
what the last lane stored there, and from every other byte what it read before. -/
def Obligations.StoreVisible : Prop :=
  ∀ (s t : State) (w : Nat) (sl : Slice) (region : Bool) (xs : List LaneStore), w < s.waves.length →
    s.roomFor w ((xs.flatMap LaneStore.parts).map (·.1)).eraseDups (Config.wwbSectors + 1) = some s → s.store w sl region xs = some t →
    ∀ (p : Place) (a : Nat),
      t.loadByte w none p a =
        match xs.reverse.find? fun x => x.place == p && decide (x.addr ≤ a) && decide (a < x.addr + x.bytes.length) with
        | some x => (x.bytes.getD (a - x.addr) 0, false)
        | none => s.loadByte w none p a

namespace Sys2Proof.Claims

/-- The access of a strong load, or store, of size code z from base k (R253). -/
def strongAcc (x a : Spec) (la : BitVec 4) (k z : BitVec 2) (wr : Bool) : LaneAcc :=
  { x := x, a := a, size := 2 ^ z.toNat, space := .dev k.toNat, wr := wr, regs := regsOf (2 ^ z.toNat), la := la }

/-- A lane's turn at an atomic: the value it found, and the state that its update left; a .cas that finds another value
writes nothing (R255). -/
def atomicTurn (c : Ctx) (q : LaneAcc) (op : Nat) (rd : State → LaneAddr → State × List Byte)
    (wr : State → LaneAddr → List Byte → State) (acc : State × List (Nat × Dword)) (y : LaneAddr) :
    State × List (Nat × Dword) :=
  let t := rd acc.1 y
  let old := dwordOfBytes t.2
  let d := c.atomicOps q y.lane
  let v := atomicValue fadd32 op (etSigned c.et) (8 * q.size) old d.1 d.2
  (if op = 7 ∧ old.toNat % 2 ^ (8 * q.size) ≠ d.1.toNat % 2 ^ (8 * q.size) then t.1
   else wr t.1 y (dwordBytes v q.size), acc.2 ++ [(y.lane, old)])

/-- An atomic, settled, whose lanes are `xs`: the lanes take their turns in order, and each receives the value it
found. -/
def AtomicDone (s : State) (c : Ctx) (i : Instr) (q : LaneAcc) (op : Nat) (ext : Bool) (xs : List LaneAddr)
    (rd : State → LaneAddr → State × List Byte) (wr : State → LaneAddr → List Byte → State) : Prop :=
  let r := xs.foldl (atomicTurn c q op rd wr) (c.s, [])
  let c1 : Ctx := { c with s := r.1 }
  exec i s = .next ((((c1.putOld q fun l => (r.2.find? (·.1 == l)).map (·.2)).watched true xs).externalIf
    (ext && !xs.isEmpty)).done (c.window q.la q.protect))

end Sys2Proof.Claims

/-- R218, R220, R253, R255, R256: strong accesses, and the atomics on the own scratchpad, device and host memory, perform
once they have settled: strong accesses act at the place of the scope, and each lane of an atomic finds what the lower lanes
left. A strong access waits for the wave's strong stores to its bytes that stand in an egress queue, into which a strong
store goes where the surroundings have it so (DEDUCED, log entry 79). The new value of each operation on w bits, w being 32 or 64, is as R255 says, and codes without an operation are
ILLEGAL_OP. -/
def Obligations.StrongAndAtomic : Prop :=
  (∀ (s : State) (c : Ctx) (h : Hold) (x a : Spec) (la o : BitVec 4) (k z : BitVec 2) (xs : List LaneAddr),
     s.Issues c → c.Settled h →
     let av := fun l => h.rows.getD l 0
     let clean := fun (q : LaneAcc) (y : LaneAddr) => (c.s.strongReads c.blockId c.w.core c.sc y.place y.addr q.size).1.strongMarked
       c.launchId c.w.core c.sc y.place y.addr = false
     (c.scan (strongAcc x a la k z false) av = .ok xs →
       let q := strongAcc x a la k z false
       (∀ y ∈ xs, c.s.egressMeets c.r.wave y.addr q.size = false) →
       let r := xs.foldl (fun (acc : State × List (Nat × List Word)) y =>
         let t := acc.1.strongReads c.blockId c.w.core c.sc .dev y.addr q.size
         (t.1, acc.2 ++ [(y.lane, (List.range q.regs).map fun i => loadWord q.size (c.et == 1 || c.et == 3) t.2 i)]))
         (c.s, [])
       let g := fun (i l : Nat) => ((r.2.find? (·.1 == l)).map fun y => y.2.getD i 0).getD 0
       ((∀ y ∈ xs, r.1.strongMarked c.blockId c.w.core c.sc y.place y.addr = false) →
         exec (.sldd x a la k z) s = .next (((({ c with s := r.1 } : Ctx).deliver q h.handles g).watched false xs).done
           (c.window la q.protect))) ∧
       (∀ m, c.strongBad r.1 xs = some m → (c.inA && isQueue x) = false →
         exec (.sldd x a la k z) s = .next (c.consumed (some m)))) ∧
     (c.scan (strongAcc x a la k z true) av = .ok xs →
       let q := strongAcc x a la k z true
       (∀ y ∈ xs, c.s.egressMeets c.r.wave y.addr q.size = false) →
       let ws := xs.map fun y => (y.addr, (h.data.drop (q.size * y.lane)).take q.size)
       let t := if h.post = false then c.s.strongStores c.blockId c.w.core c.sc ws
         else { c.s with egress := c.s.egress ++
           [{ wave := c.r.wave, core := c.w.core, launch := c.launchId, sc := c.sc, writes := ws }] }
       exec (.sstd x a la k z) s = .next (((({ c with s := t } : Ctx).watched true xs).externalIf
         (2 ≤ c.sc && !xs.isEmpty)).done (c.window la q.protect))) ∧
     (let q := atomicAcc c x a la o.toNat (.scratch 0);
       c.scan q av = .ok xs → (∀ y ∈ xs, c.s.poisoned y.place y.addr = false) → AtomicDone s c (.ats x a la o) q o.toNat false xs
         (fun s y => (s, s.readBytes y.place y.addr q.size)) (fun s y bs => s.writeBytes y.place y.addr bs)) ∧
     (let q := atomicAcc c x a la o.toNat (.dev 0);
       c.scan q av = .ok xs → (∀ y ∈ xs, clean q y) → AtomicDone s c (.atd x a la o) q o.toNat (2 ≤ c.sc) xs
         (fun s y => s.strongReads c.blockId c.w.core c.sc y.place y.addr q.size)
         (fun s y bs => s.strongWrites c.blockId c.w.core c.sc y.place y.addr bs)) ∧
     (let q := atomicAcc c x a la o.toNat (.host 0);
       c.scan q av = .ok xs → (∀ y ∈ xs, clean q y) → AtomicDone s c (.ath x a la o) q o.toNat true xs
         (fun s y => s.strongReads c.blockId c.w.core c.sc y.place y.addr q.size)
         (fun s y bs => s.strongWrites c.blockId c.w.core c.sc y.place y.addr bs))) ∧
  (∀ (w : Nat) (old d n : Dword) (sg : Bool), (w = 32 ∨ w = 64) → old.toNat < 2 ^ w → d.toNat < 2 ^ w → n.toNat < 2 ^ w →
    let new := fun op => (atomicValue fadd32 op sg w old d n).toNat
    let value := fun (x : Dword) => if sg ∧ 2 ^ (w - 1) ≤ x.toNat then (x.toNat : Int) - 2 ^ w else (x.toNat : Int)
    new 0 = (old.toNat + d.toNat) % 2 ^ w ∧
    (new 1 = old.toNat ∨ new 1 = d.toNat) ∧ value (atomicValue fadd32 1 sg w old d n) = min (value old) (value d) ∧
    (new 2 = old.toNat ∨ new 2 = d.toNat) ∧ value (atomicValue fadd32 2 sg w old d n) = max (value old) (value d) ∧
    (∀ i < w, (new 3).testBit i = (old.getLsbD i && d.getLsbD i)) ∧
    (∀ i < w, (new 4).testBit i = (old.getLsbD i || d.getLsbD i)) ∧
    (∀ i < w, (new 5).testBit i = (old.getLsbD i != d.getLsbD i)) ∧
    new 6 = d.toNat ∧
    new 7 = (if old = d then n.toNat else old.toNat) ∧
    (w = 32 → new 8 = (fadd32 (loWord old) (loWord d)).toNat)) ∧
  (∀ (s : State) (c : Ctx) (x a : Spec) (la o : BitVec 4), s.Issues c → c.f.hold = none → 9 ≤ o.toNat →
    (∀ l ∈ c.w.loads, l.slice ≠ c.r.slice) → c.owed = [] →
    Traps s c (.ats x a la o) { cls := .illegalOp } ∧ Traps s c (.atd x a la o) { cls := .illegalOp } ∧
    Traps s c (.ath x a la o) { cls := .illegalOp } ∧ Traps s c (.atx x a la o) { cls := .illegalOp })

/-- R145, R254, R258 to R260: a peer load delivers once every lane has its answer, the wave's own bytes first, and
consumes what a node answers as uncorrectable for a lane that takes a byte from it; a peer atomic gives each lane the value that its node answers; PFD changes
no register and no memory, and tests the byte it addresses against the destination spans (DESIGN CHOICE, log entry 80); SHLD issues a load of
48 bytes into the context's table. -/
def Obligations.PeerAndPrefetch : Prop :=
  ∀ (s : State) (c c1 : Ctx) (x a : Spec) (la o : BitVec 4) (k z hint : BitVec 2) (av : Nat → Dword), s.Issues c →
    (∀ h xs t reqs, c.f.hold = some h →
      let q : LaneAcc := { x := x, a := a, size := 2 ^ z.toNat, space := .peer, regs := regsOf (2 ^ z.toNat), la := la }
      c.scan q (fun l => h.rows.getD l 0) = .ok xs →
      replay c (fun _ => .load q.size) (replayOrder xs) c.s h.reqs 40 = .done t reqs →
      let covered := fun (y : LaneAddr) => (List.range q.size).all fun j =>
        (t.bufferByte c.r.wave h.seq y.place (y.addr + j)).isSome
      (∀ m, peerBad t (replayOrder xs) reqs covered = some m → (c.inA && isQueue x) = false →
        exec (.ldx x a la z) s = .next (({ c with s := t } : Ctx).consumed (some m))) ∧
      (peerBad t (replayOrder xs) reqs covered = none →
      let bytes := fun (i : Nat) (y : LaneAddr) => (List.range q.size).map fun j =>
        (t.bufferByte c.r.wave h.seq y.place (y.addr + j)).getD ((t.peerData (reqs.getD i 0)).getD j 0)
      let vals := (replayOrder xs).mapIdx fun i y => (y.lane, fun j => loadWord q.size (c.et == 1 || c.et == 3) (bytes i y) j)
      let g := fun (i l : Nat) => ((vals.find? (·.1 == l)).map fun y => y.2 i).getD 0
      exec (.ldx x a la z) s = .next (((({ c with s := t } : Ctx).deliver q h.handles g).externalIf (!xs.isEmpty)).done
        (c.window la q.protect)))) ∧
    (∀ h xs t reqs, c.Settled h →
      let q := atomicAcc c x a la o.toNat .peer
      c.scan q (fun l => h.rows.getD l 0) = .ok xs →
      let ys := replayOrder xs
      let ask := fun (y : LaneAddr) =>
        PeerAsk.atomic o (BitVec.ofNat 4 c.et) (c.atomicOps q y.lane).1 (c.atomicOps q y.lane).2
      replay c ask ys c.s h.reqs 40 = .done t reqs → peerBad t ys reqs = none →
      let old := fun (l : Nat) => ((List.range ys.length).find? fun i =>
          (ys.map (·.lane)).getD i 99 == l && (t.peerData (reqs.getD i t.peers.length)).length != 0).map fun i =>
        dwordOfBytes (t.peerData (reqs.getD i 0))
      exec (.atx x a la o) s = .next (((({ c with s := t } : Ctx).putOld q old).externalIf (!xs.isEmpty)).done
        (c.window la q.protect))) ∧
    (let q : LaneAcc := { x := .v 0, a := a, size := 1, space := .dev k.toNat, regs := 1, la := la }
      let regs := specRegs a 1 ++ q.baseRegs
      c.Passes { illegal := hint == 3#2, operand := !c.srcOk false q.aSrc, guard := true, regs := regs } →
      c.readAll [q.aSrc] = .ok c1 [av] → c1.coreState.copies = [] →
      exec (.pfd a la k hint) s = .next (c1.done (c.window la regs))) ∧
    (∀ n : BitVec 4, ∀ xs, c.Passes { operand := !c.uniRegOk a 2 2, regs := specRegs a 2 } →
      (c.uval64 a).toNat % 16 = 0 →
      ((List.range 3).map fun i => c.virtOut false false 16 i ((c.uval64 a).toNat + 16 * i)) = xs.map LaneOut.ok →
      (∀ y ∈ xs, (c.s.loadBytes c.r.wave none y.place y.addr 16).2 = false) →
      let c2 := c.fillTlbs xs
      let ld : Load :=
        { id := c2.w.seq, slice := c2.r.slice, pc := c.f.pc, issued := c2.s.cycle, dest := .shape n.toNat
          size := 16, signed := false, lanes := xs, part := 0, entry := c2.r.entry
          fence := c2.st.fence, eseq := c2.eseq }
      exec (.shld a la n) s = .next (({ c2 with
        w := { c2.w with loads := c2.w.loads ++ [ld], seq := c2.w.seq + 1 } } : Ctx).done
          (c.window la (specRegs a 2))))

namespace Sys2Proof.Claims

/-! Instructions that are held for their settle window. -/

/-- The instructions that only wait for their settle window once their checks have passed, with what they ask. -/
def heldForms (c : Ctx) (x a b : Spec) (la v : BitVec 4) : List (Instr × Need) := [
  (.cmt la v, { illegal := v.toNat == 0 || 5 < v.toNat, noRegion := true }),
  (.abt x la v, { illegal := 3 < v.toNat, noRegion := true, operand := !c.uniRegOk x 1 1, regs := specRegs x 1 }),
  (.acq la v, { illegal := v.toNat == 0 || 5 < v.toNat }),
  (.sync la v, { illegal := v.toNat == 0 || 5 < v.toNat, noRegion := true }),
  (.mark a, { operand := !c.uniSrcOk a, regs := specRegs a 1 }),
  (.tarm a b,
    { noRegion := true, operand := !c.uniSrcOk a || !c.uniRegOk b 2 2 || (c.uval a).toNat / 8 != 0
      regs := specRegs a 1 ++ specRegs b 2 }),
  (.sstart x a la,
    { noRegion := true, operand := !c.uniRegOk x 2 2 || !c.uniRegOk a 2 2 || (c.uval x).toNat / 256 != 0
      regs := specRegs x 2 ++ specRegs a 2
      post :=
        if (c.uval64 a).toNat % 16 != 0 then some { cls := .align, addr := c.uval64 a }
        else if Config.addressTop ≤ (c.uval64 a).toNat then some { cls := .protection, cause := 1, addr := c.uval64 a }
        else c.allowance (c.uval x) }),
  (.sstop x la,
    { noRegion := true, operand := !c.uniRegOk x 1 1 || (c.uval x).toNat / 256 != 0, regs := specRegs x 1
      post := c.allowance (c.uval x) }),
  (.sstat x a la,
    { operand := !c.uniRegOk x 2 2 || !c.uniSrcOk a || (c.uval a).toNat / 256 != 0
      regs := specRegs x 2 ++ specRegs a 1, post := c.allowance (c.uval a) })]

end Sys2Proof.Claims

/-- R207, R227, R303: an instruction whose effect leaves the wave issues and is held with the registers of its issue; its
fragment stays at it (DEDUCED, log entry 7), nothing else changes, and its settle window ends after 128 cycles once every
earlier load has returned (R227) and the other stream holds nothing that the order of the streams puts before it
(R226). -/
def Obligations.HeldIssue : Prop :=
  (∀ (s : State) (c : Ctx) (x a b : Spec) (la v : BitVec 4), s.Issues c → c.f.hold = none →
    ∀ f ∈ heldForms c x a b la v, c.Passes f.2 → Leaves s c f.1 fun t k =>
      k.f.hold = some { issued := c.s.cycle, seq := c.w.seq, regs := c.st.regs, eseq := c.w.eseq, fence := c.st.fence } ∧
      k.f.park = none ∧
      k.f.pc = c.f.pc ∧ k.f.mask = c.f.mask ∧ k.f.ctl = c.f.ctl ∧ k.st.regs = c.st.regs ∧ k.w.seq = c.w.seq + 1 ∧
      { t with waves := s.waves } = s) ∧
  (∀ (w : Wave) (now : Nat) (behind : Bool) (h : Hold), (h.settle w now behind).settled = true ↔
    h.settled = true ∨ (h.issued + 128 ≤ now ∧ (∀ l ∈ w.loads, h.seq ≤ l.id) ∧ behind = false))

/-- R207, R208, R213, R214, R223, R224, R416: CMT, settled and ready, moves the stores of its stream to the level it
names; ABT takes them back and reports in S[x]; ACQ drops the narrower copies; SYNC commits and then acquires. In a fragment
of helper lanes CMT and SYNC have no effect (R34; DEDUCED for SYNC, log entry 51). -/
def Obligations.CommitAndAcquire : Prop :=
  ∀ (s : State) (c : Ctx) (h : Hold) (x : Spec) (la v : BitVec 4), s.Issues c → c.Settled h →
    (c.allHelpers = false → h.arrived = false → c.s.commitReady c.r.wave v.toNat h.seq = true →
      let r := c.out.commit c.r.wave v.toNat h.seq false
      let c1 := c.reload r.1
      let c2 := ({ c1 with f := { c1.f with hold := some { h with arrived := true, reqs := r.2 } } } : Ctx).externalIf
        (2 ≤ v.toNat)
      let c3 : Ctx := { c2 with s := c2.s.writeOutAll c2.w.core v.toNat }
      (c2.s.answers r.2 = .all →
        exec (.cmt la v) s = .next (c3.done (c3.window la [])) ∧
        exec (.sync la v) s = .next ((c3.acquire v.toNat).done (c3.window la []))) ∧
      (∀ n, c2.s.answers r.2 = .refused n →
        Traps s c2 (.cmt la v) { cls := .peerNak, info := BitVec.ofNat 32 n } ∧
        Traps s c2 (.sync la v) { cls := .peerNak, info := BitVec.ofNat 32 n })) ∧
    (c.allHelpers = true →
      exec (.cmt la v) s = .next (c.done (c.window la [])) ∧
      exec (.sync la v) s = .next (c.done (c.window la []))) ∧
    exec (.acq la v) s = .next ((c.acquire v.toNat).done (c.window la [])) ∧
    ((∀ p ∈ c.w.pend, h.seq ≤ p.seq) →
      let r := c.out.abort c.r.wave v.toNat h.seq
      let k := (c.reload r.1).setSpec x r.2
      exec (.abt x la v) s = .next (k.done (c.window la (specRegs x 1))) ∧
      (v = 0 → ∀ y ∈ k.w.wwb, ∀ i b, y.data.getD i none = some b → h.seq ≤ b.by'))

/-- R175: an arrival on a thread-kind cell. -/
def Obligations.ThreadArrival : Prop :=
  ∀ (s : State) (b off : Nat) (e : Word) (k : Cell) (remote : Bool), b < s.blocks.length →
    (s.block b).cell? off = some k → k.arrival = false → e ≠ 0 →
    let exp := if k.exp = 0 then e else k.exp
    (e ≠ exp → s.arriveThread b off e remote = .error .barrierMismatch) ∧
    (e = exp → ∃ t k', s.arriveThread b off e remote = .ok t ∧ (t.block b).cell? off = some k' ∧
      k'.arrival = false ∧ k'.poi = k.poi ∧
      (k.cnt + 1 = exp → k'.ph = !k.ph ∧ k'.exp = 0 ∧ k'.cnt = 0 ∧
        ∀ w ∈ (s.block b).waves, ∀ sl n, ((s.wave w).stream sl).frag n = none ∨
          ∃ f g, ((s.wave w).stream sl).frag n = some f ∧ ((t.wave w).stream sl).frag n = some g ∧
            (∀ p a h, f.park = some (.cell k.off p a h) → g.park = some (.cell k.off p true h)) ∧
            ((∀ p a h, f.park ≠ some (.cell k.off p a h)) → g = f)) ∧
      (k.cnt + 1 ≠ exp → k'.ph = k.ph ∧ k'.exp = exp ∧ k'.cnt = k.cnt + 1 ∧ t.waves = s.waves))

namespace Sys2Proof.Claims

/-- A wait on the cell at `off` for a parity ends at once: the cell is of the kind, is not poisoned, and its phase is
no longer that parity. -/
structure PhaseOver (c : Ctx) (off : Nat) (arrival parity : Bool) (k : Cell) : Prop where
  cell : c.block.cell? off = some k
  kind : k.arrival = arrival
  clean : k.poi = false
  passed : k.ph ≠ parity
  fresh : ∀ o p a h, c.f.park ≠ some (.cell o p a h)

/-- Completion of a wait on a cell: it acquires at the level that the cell's remote arrivals and counted bytes ask
(R180, R229, R263). -/
def Ctx.afterWait (c : Ctx) (k : Cell) (w : Option Window) : State := (c.acquire k.acq).done w

end Sys2Proof.Claims

/-- R176, R178, R180, R263 to R268: BINIT tags or untags its granule; BARV arrives and gives the phase it found; BARW
arrives and waits; BWAIT and AWAIT complete once the phase is over; BREMA arrives at a member's cell; AEXP announces a
total and AREL releases the phase. A wait parks the fragment that issues it, and the wave's other stream runs on (DEDUCED,
log entry 66, from R263 and R268 beside R180's 'parks the wave'). -/
def Obligations.Barriers : Prop :=
  ∀ (s : State) (c : Ctx) (h : Hold) (x a : Spec) (la : BitVec 4), s.Issues c → c.Settled h →
    let off := c.cellOff a
    let win := c.window la (specRegs x 1 ++ specRegs a 1)
    (∀ (k : BitVec 1) (u : BitVec 2), c.coreState.locked 0 c.blockId off (off + 15) true = false →
      (c.block.cell? off = none ∨ c.s.pkw c.blockId off = 0) →
      let tag := fun (y : Block) => y.setCell { off := off, arrival := k == 1#1, unit := u.toNat }
      let untag := fun (y : Block) =>
        { y with cells := y.cells.filter (·.off != off), scr := y.scr.writes off (List.replicate 16 0) }
      exec (.binit a la 0#1 k u) s = .next (({ c with s := c.s.updBlock c.blockId tag } : Ctx).done
        (c.window la (specRegs a 1))) ∧
      exec (.binit a la 1#1 k u) s = .next (({ c with s := c.s.updBlock c.blockId untag } : Ctx).done
        (c.window la (specRegs a 1)))) ∧
    (∀ t, c.out.arriveThread c.blockId off (c.uval x) false = .ok t →
      exec (.barv x a la) s = .next (((c.reload t).setSpec x (if c.phase off then 1 else 0)).done win) ∧
      (h.arrived = false → ∀ k,
        let c1 := (c.reload t).setSpec x (if c.phase off then 1 else 0)
        let h' := { h with arrived := true, lanesDone := if c.phase off then 1 else 0 }
        let c2 : Ctx := { c1 with f := { (c.reload t).f with hold := some h' } }
        (PhaseOver c2 off false (c.phase off) k → exec (.barw x a la 0#2) s = .next (Ctx.afterWait c2 k win)) ∧
        (c2.block.cell? off = some k → k.arrival = false → k.poi = false → k.ph = c.phase off →
          (∀ o p a h, c2.f.park ≠ some (.cell o p a h)) →
          let f := { c2.f with park := some (.cell off (c.phase off) false none) }
          exec (.barw x a la 0#2) s = .next ({ c2 with f := f } : Ctx).out))) ∧
    (∀ k, PhaseOver c off false ((c.uval x).getLsbD 0) k →
      exec (.bwait x a la 0#2) s = .next (Ctx.afterWait c k win)) ∧
    (∀ k, PhaseOver c off true ((c.uval x).getLsbD 0) k →
      exec (.await x a la 0#2) s = .next (Ctx.afterWait c k win)) ∧
    (∀ (g : BitVec 2) b t, c.member g.toNat = .block b → c.cellFault b off = none →
      c.out.arriveThread b off (c.uval x) true = .ok t →
      exec (.brema x a la g) s = .next ((c.reload t).done ((c.reload t).window la (specRegs x 1 ++ specRegs a 1)))) ∧
    (∀ t, c.out.announce c.blockId off (c.uval x) = .ok t →
      exec (.aexp x a la) s = .next (((c.reload t).setSpec x (if c.phase off then 1 else 0)).done win)) ∧
    (∀ k, c.block.cell? off = some k → k.arrival = true → c.blockId < s.blocks.length →
      Leaves s c (.arel a la) fun t _ => (t.block c.blockId).cell? off = some { k with full := false }) ∧
    (c.block.cell? off = none →
      Traps s c (.barv x a la) { cls := .barrierMismatch } ∧ Traps s c (.bwait x a la 0#2) { cls := .barrierMismatch } ∧
      Traps s c (.await x a la 0#2) { cls := .barrierMismatch } ∧ Traps s c (.aexp x a la) { cls := .barrierMismatch } ∧
      Traps s c (.arel a la) { cls := .barrierMismatch })

namespace Sys2Proof.Claims

/-- A side of a copy as its descriptor and its selector name it. -/
def copySides (c : Ctx) (bs : List Byte) : CopySide × CopySide :=
  let k := CopyCtl.of (BitVec.ofNat 32 (fieldAt bs 60 4))
  (c.side k.ssp k.ssel (fieldAt bs 0 4) k.shnd k.srev k.esz ((List.range 5).map fun i => fieldAt bs (20 + 4 * i) 4),
   c.side k.dsp k.dsel (fieldAt bs 4 4) k.dhnd k.drev k.esz ((List.range 5).map fun i => fieldAt bs (40 + 4 * i) 4))

def copyCounts (bs : List Byte) : List Nat := (List.range 6).map fun i => fieldAt bs (8 + 2 * i) 2

/-- The descriptor at the address operand passes every check of R272, and the core has room for the copy. -/
structure CopyRuns (c : Ctx) (a : Spec) (bs : List Byte) (idx : Nat) : Prop where
  passes : c.Passes { noRegion := true, operand := !c.uniSrcOk a, regs := specRegs a 1 }
  live : c.allHelpers = false
  aligned : c.cellOff a % 64 = 0
  inside : c.cellOff a + 64 ≤ c.block.scrSize
  unlocked : c.coreState.locked 0 c.blockId (c.cellOff a) (c.cellOff a + 63) false = false
  bytes : c.s.loadBytes c.r.wave none (.scr c.blockId) (c.cellOff a) 64 = (bs, false)
  reserved : (CopyCtl.of (BitVec.ofNat 32 (fieldAt bs 60 4))).rsv = false
  source : let k := CopyCtl.of (BitVec.ofNat 32 (fieldAt bs 60 4))
    badSide k.ssp k.ssel k.shnd = false ∧ (k.ssp = 1 → k.ssel = 2) ∧
    c.handleFault (sideHandle k.shnd (fieldAt bs 0 4)) (bufOfSel k.ssel) = none
  target : let k := CopyCtl.of (BitVec.ofNat 32 (fieldAt bs 60 4))
    badSide k.dsp k.dsel k.dhnd = false ∧ (k.dsp = 1 → k.dsel ≠ 2) ∧
    c.handleFault (sideHandle k.dhnd (fieldAt bs 4 4)) (bufOfSel k.dsel) = none
  bases : let k := CopyCtl.of (BitVec.ofNat 32 (fieldAt bs 60 4))
    let regs := sideRegs k.ssp k.ssel ++ sideRegs k.dsp k.dsel
    (∀ w ∈ c.f.windows, meets w.regs regs = false) ∧ meets c.owed regs = false ∧
    ∀ l ∈ c.w.loads, l.slice = c.r.slice → meets l.writes regs = false
  elements : let esz := (CopyCtl.of (BitVec.ofNat 32 (fieldAt bs 60 4))).esz
    (copySides c bs).1.misaligned esz = false ∧ (copySides c bs).2.misaligned esz = false ∧
    (copySides c bs).1.outside (copyCounts bs) esz = false ∧ (copySides c bs).2.outside (copyCounts bs) esz = false
  cells : c.block.cells = []
  screen : c.block.shadow = false ∧ c.block.screen = none
  entry : c.coreState.freeEntry c.w.slot c.slotsHere = some idx
  clear : c.coreState.copies = [] ∧ c.coreState.locks = []

end Sys2Proof.Claims

/-- R229, R269 to R275: ACPY, its descriptor checked, issues a copy under its token, and completes at once where the copy
is empty; one that counts into a cell stays in flight until it has settled (DEDUCED, log entry 36); CWAIT, once no copy of its tokens is in
flight, acquires for their bytes, reports their errors and clears them, CPOLL acquires and reports without waiting, and CPOLL.e reads one error word. -/
def Obligations.Copies : Prop :=
  ∀ (s : State) (c : Ctx) (x a : Spec) (la : BitVec 4) (t : BitVec 3), s.Issues c →
    (∀ bs idx, CopyRuns c a bs idx →
      let k := CopyCtl.of (BitVec.ofNat 32 (fieldAt bs 60 4))
      let src := (copySides c bs).1
      let dst := (copySides c bs).2
      let cp : Copy :=
        { idx := idx, wave := c.r.wave, token := t.toNat, src := src, dst := dst, counts := copyCounts bs, esz := k.esz
          cell := if k.bar then some (16 * k.bcell) else none
          srcSpan := src.span (copyCounts bs) k.esz c.blockId c.asid
          dstSpan := dst.span (copyCounts bs) k.esz c.blockId c.asid
          eseq := c.w.eseq, slice := c.r.slice, pc := c.f.pc, issued := c.s.cycle }
      let user := fun (s : State) (h : Option Nat) => match h with
        | some h => s.addUser c.w.core h
        | none => s
      let issued := c.s.updCore c.w.core fun y => { y with copies := y.copies ++ [cp] }
      let tokens := c.w.tokens.modify t.toNat fun y =>
        { y with count := y.count + 1, acq := max y.acq dst.level }
      let c1 : Ctx := { c with
        s := user (user issued src.handle) dst.handle, w := { c.w with eseq := c.w.eseq + 1, tokens := tokens } }
      let c0 : Ctx := { c with w := { c.w with eseq := c.w.eseq + 1 } }
      k.ssp < 2 → k.dsp < 2 →
      exec (.acpy a la t) s = .next ((if nestSize (copyCounts bs) = 0 ∧ k.bar = false then c0 else c1).done
        (c.window la (specRegs a 1)))) ∧
    (c.Passes (c.tokenNeed x a) →
      let l := (List.range 8).filter fun i => (c.uval a).getLsbD i
      let win := c.window la (specRegs x 1 ++ specRegs a 1)
      let cleared := c.w.tokens.mapIdx fun i y => if l.contains i then { y with err := false } else y
      ((∀ i ∈ l, (c.w.token i).count = 0) → exec (.cwait x a la) s = .next ((({ c.acquireTokens l with
        w := { c.w with tokens := cleared } } : Ctx).setSpec x (tokenBits c.w l (·.err))).done win)) ∧
      ((∃ i ∈ l, (c.w.token i).count ≠ 0) →
        exec (.cwait x a la) s = .next ({ c with f := { c.f with park := some .copies } } : Ctx).out) ∧
      exec (.cpoll x a la) s = .next (((c.acquireTokens l).setSpec x
        (tokenBits c.w l (·.count == 0) ||| (tokenBits c.w l (·.err) <<< 8))).done win)) ∧
    (c.Passes
        { operand := !c.uniRegOk x 2 2 || !c.uniSrcOk a || 8 ≤ (c.uval a).toNat
          regs := specRegs x 2 ++ specRegs a 1 } →
      let i := (c.uval a).toNat
      let e := c.w.token i
      let cleared := c.w.tokens.modify i fun y => { y with err := false, code := 0, cause := 0, index := 0 }
      exec (.cpollE x a la) s = .next ((({ c with w := { c.w with tokens := cleared } } : Ctx).setSpec64 x
        (pair (BitVec.ofNat 32 (e.code % 16 + 16 * (e.cause % 8))) e.index)).done
          (c.window la (specRegs x 2 ++ specRegs a 1))))

/-- R276 to R279: SSTART binds a free stream context and starts its program there, SSTOP unbinds it at a command
boundary, and SSTAT reads its status. -/
def Obligations.StreamInstructions : Prop :=
  ∀ (s : State) (c : Ctx) (h : Hold) (x a : Spec) (la : BitVec 4), s.Issues c → c.Settled h →
    (let e := (c.uval x).toNat % 32
     let k := (c.uval x).toNat / 32 % 8
     (c.s.xctx? e k = none →
        let y : XCtx :=
          { engine := e, k := k, launch := c.launchId, pc := (c.uval64 a).toNat, seq := c.w.eseq, site := c.r
            sitePc := c.f.pc }
        let bound := { c.s with engines := c.s.engines ++ [y] }
        exec (.sstart x a la) s = .next ((({ c with s := bound, w := { c.w with eseq := c.w.eseq + 65536 } }
          : Ctx).external.setSpec64 x (pair 0 c.w.eseq)).done (c.window la (specRegs x 2 ++ specRegs a 2))) ∧
        exec (.sstop x la) s = .next ((c.setSpec x 1).done (c.window la (specRegs x 1)))) ∧
     (∀ y, c.s.xctx? e k = some y →
        exec (.sstart x a la) s = .next ((c.setSpec64 x 1).done (c.window la (specRegs x 2 ++ specRegs a 2))) ∧
        (y.launch ≠ c.launchId → Traps s c (.sstop x la) { cls := .protection }) ∧
        (y.launch = c.launchId → y.phase = .running → y.locked = false →
          exec (.sstop x la) s = .next ((({ c with s := c.s.unbind e k } : Ctx).setSpec x 0).done
            (c.window la (specRegs x 1)))) ∧
        (∀ code, y.launch = c.launchId → y.phase = .faulted code →
          exec (.sstop x la) s = .next ((({ c with s := c.s.unbind e k } : Ctx).setSpec x 2).done
            (c.window la (specRegs x 1)))))) ∧
    exec (.sstat x a la) s = .next ((c.setSpec64 x
      (c.s.engineStatus c.launchId ((c.uval a).toNat % 32) ((c.uval a).toNat / 32 % 8))).done
        (c.window la (specRegs x 2 ++ specRegs a 1)))

/-- R87 to R89, R285 to R294, R402: MMX and GMMX read A, or the latch, when they issue, where event 4 counts the step. The
matrix and tile instructions, settled, perform on the C tile they name: that B, the scales and the tile are read then is
DEDUCED (log entry 40). CPACK writes registers or ABUF, with the scale of the scale word or its own; CRD reads four words of
each row at once; THAL takes the lowest free entry and answers 0 where there is none; THFREE releases. -/
def Obligations.MatrixUnits : Prop :=
  (∀ (s : State) (c : Ctx) (h : Hold) (x a : Spec) (la : BitVec 4) (g : BitVec 3), s.Issues c → c.Settled h →
    let cw := c.uval a
    let p := keptTile h
    (∀ r : BitVec 1,
      let b := FormatBlock.of ((c.words4 a).getD 0 0) ((c.words4 a).getD 1 0)
      let w3 := (c.words4 a).getD 3 0
      let gs : List Group := h.rows.map fun d =>
        { first := d.toNat % 64, rows := d.toNat / 64 % 64, bh := d.toNat / 4096 % 65536
          bo := d.toNat / 2 ^ 28 % 65536, sbo := d.toNat / 2 ^ 44 }
      let t := h.users.foldl (fun s u => s.dropUser c.w.core u) (c.matrixStep b gs w3 h.data h.lanesDone)
      let bad := { c with s := h.users.foldl (fun s u => s.dropUser c.w.core u) c.s : Ctx }
      let win := c.window la ((match x with | .v _ => specRegs x 4 | _ => []) ++ specRegs a 4)
      (c.matrixBad b gs w3 h.lanesDone = none →
        exec (.mmx x a la r) s = .next (({ c with s := t } : Ctx).done win) ∧
        exec (.gmmx x a la r) s = .next (({ c with s := t } : Ctx).done win)) ∧
      (∀ m, c.matrixBad b gs w3 h.lanesDone = some m →
        exec (.mmx x a la r) s = .next (bad.consumed (some m)) ∧
        exec (.gmmx x a la r) s = .next (bad.consumed (some m)))) ∧
    (∀ n : Fin 128, x = .v n →
      let t := (lanes.filter fun i => h.lanesDone.getLsbD i).foldl (fun s i =>
        s.writeBytes p.1 (p.2 + 128 * i + 16 * g.toNat)
          ((List.range 4).flatMap fun q => bytesOfWord ((h.regs.vec (n + q)).lane i))) c.s
      exec (.cwr x a la g) s = .next (({ c with s := t } : Ctx).done (c.window la (specRegs x 4 ++ specRegs a 1)))) ∧
    exec (.czero a la) s = .next (({ c with
      s := c.s.writeBytes p.1 p.2 (List.replicate 4096 0) } : Ctx).done (c.window la (specRegs a 1))) ∧
    (∀ (m : Fin 64) (u : BitVec 1), a = .s m →
      let sw := hiWord (c.uval64 a)
      let tile := c.tileAt (cUse cw)
      let bs := c.tileBytes tile 4096
      let v := fun (i j : Nat) => packValue (sw.getLsbD 8) (fieldAt bs (128 * i + 4 * j) 4)
      let sigma := if u = 1#1 then autoScale (lanes.flatMap fun i => lanes.map fun j => v i j)
        else intOf true 8 (sw.toNat % 256)
      let e := fun (i j : Nat) => kd8Encode c.sat ((v i j).scale10 (-sigma))
      let scale := fun (k : Ctx) =>
        if u = 1#1 then k.setUni (m + 1) (BitVec.ofNat 32 (wrapInt 8 sigma) ||| (sw &&& 0x100)) else k
      let free := fun (k : Ctx) => ({ k with s := h.users.foldl (fun s u => s.dropUser k.w.core u) k.s } : Ctx)
      (∀ n : Fin 128, x = .v n →
        (∀ i ∈ lanes, (u = 1#1 ∨ h.lanesDone.getLsbD i = true) → c.s.poisonIn tile.1 (tile.2 + 128 * i) 128 = none) →
        let c1 := (List.range 8).foldl (fun (c : Ctx) q => c.setVec (n + q) h.lanesDone fun i =>
          BitVec.ofNat 32 (natOfBytes ((List.range 4).map fun r => e i (4 * q + r)))) c
        exec (.cpack x a la u 0#1) s = .next ((free (scale c1)).done (c.window la (specRegs x 8 ++ specRegs a 2)))) ∧
      (∀ n : Fin 64, x = .s n → (∀ i ∈ lanes, c.s.poisonIn tile.1 (tile.2 + 128 * i) 128 = none) →
        let bytes := lanes.flatMap fun i => lanes.map fun j => e i j
        let c1 : Ctx := { c with s := c.s.writeBytes (.typed c.blockId .a) (c.uval x).toNat bytes }
        exec (.cpack x a la u 1#1) s = .next ((free (scale c1)).done (c.window la (specRegs x 1 ++ specRegs a 2))))) ∧
    (∀ b : BitVec 1,
      let win := c.window la (specRegs x 1 ++ specRegs a 2)
      (c.coreState.freeHandle = none → exec (.thal x a la b) s = .next ((c.setSpec x 0).done win)) ∧
      (∀ i, c.coreState.freeHandle = some i →
        (∀ j < i, (c.coreState.handle j).alloc = true) ∧
        let t := c.s.updHandle c.w.core i fun e =>
          { e with alloc := true, buf := if b == 1#1 then .c else .w, off := (loWord (c.uval64 a)).toNat
                   len := (hiWord (c.uval64 a)).toNat, launch := c.launchId, block := c.blockId
                   users := 0, deferred := false, pend := false }
        exec (.thal x a la b) s = .next ((({ c with s := t } : Ctx).setSpec x
          (BitVec.ofNat 32 (i + 1024 * (c.coreState.handle i).gen))).done win))) ∧
    (c.freeFault cw.toNat = none → exec (.thfree a la) s = .next (({ c with
      s := c.s.updHandle c.w.core (cw.toNat % 1024) (·.release) } : Ctx).done (c.window la (specRegs a 1))))) ∧
  (∀ (s : State) (c c1 : Ctx) (x a : Spec) (la : BitVec 4) (r : BitVec 1) (grouped : Bool) (gs : List Group)
      (rows : List (List Byte)), s.Issues c → c.f.hold = none →
    let w := fun i => (c.words4 a).getD i 0
    let b := FormatBlock.of (w 0) (w 1)
    let regs := (match x with | .v _ => specRegs x 4 | _ => []) ++ specRegs a 4
    c.Passes
      { illegal := c.inA, noRegion := true, guard := true, regs := regs
        operand := !c.aSrcOk x || !c.uniRegOk a 4 4 || b.rsv || 4 < b.af || 4 < b.bf || !b.pairOk || tileRsv (w 3) ||
          (grouped && (w 2).toNat % 64 != 0) || (c.w.latch.map fun l => l.af != b.af).getD false } →
    c.matrixGroups grouped b (w 2) = .ok gs → c.matrixFault b gs (w 3) = none →
    (∀ l, c.w.latch = some l → c1 = c ∧ rows = l.rows) →
    (c.w.latch = none → ∃ vals, c.readAll (aWords x) = .ok c1 vals ∧ rows = lanes.map fun i =>
      if c.part.getLsbD i then vals.flatMap fun v => bytesOfWord ((v i).setWidth 32) else List.replicate 16 0) →
    Leaves s c (if grouped then .gmmx x a la r else .mmx x a la r) fun t k =>
      k.f.pc = c.f.pc ∧ k.w.latch = (if r = 1#1 then some { af := b.af, rows := rows } else none) ∧
      (∃ h, k.f.hold = some h ∧ h.settled = false ∧ h.data = rows.flatMap id ∧ h.lanesDone = c.part ∧
        h.users = gs.map (·.bh) ++ [tileHandle (w 3)]) ∧
      ((s.context? c.fn c.asid).isSome = true → t.context c.fn c.asid = (s.context c.fn c.asid).countEvent 4 1)) ∧
  (∀ (s : State) (c : Ctx) (n : Fin 128) (a : Spec) (la : BitVec 4) (g : BitVec 3), s.Issues c →
    c.Passes
      { illegal := c.inA, operand := !c.vecRun n 4 4 || !c.uniSrcOk a || tileRsv (c.uval a), guard := true
        regs := specRegs (.v n) 4 ++ specRegs a 1 } →
    c.tileFault [cUse (c.uval a)] = none → c.tileLocked (cUse (c.uval a)) true = false →
    n + 3 < c.st.regs.v.length →
    let p := c.tileAt (cUse (c.uval a))
    (∀ i < 32, c.part.getLsbD i = true → c.s.poisonIn p.1 (p.2 + 128 * i + 16 * g.toNat) 16 = none) →
    Leaves s c (.crd (.v n) a la g) fun _ k =>
      (∀ q < 4, ∀ i < 32, (k.st.regs.vec (n + q)).lane i =
        if c.part.getLsbD i then
          BitVec.ofNat 32 (natOfBytes ((List.range 4).map fun r => c.tileByte p.1 (p.2 + 128 * i + 16 * g.toNat + 4 * q + r)))
        else (c.st.regs.vec (n + q)).lane i) ∧
      (∀ m, m < n.val ∨ n + 3 < m → k.st.regs.vec m = c.st.regs.vec m) ∧
      k.st.regs.s = c.st.regs.s ∧ k.st.regs.p = c.st.regs.p)

/-- R307 to R309, R312, R350, R351, R354: RECV takes the head of its queue once it is deliverable and the RECVs that
came to the queue before it have theirs; with no such message, or an empty queue, RECV waits, and RECV.nb comes back
empty unless a message is there for each RECV before it and one for it. MSEND, whose payload is read at issue (DEDUCED, log
entry 60), completes when its destination answers; SPAWN creates its blocks and gives the first block's index, and a block
index out of range is PROTECTION cause 1 when it performs (DEDUCED, log entry 52); WAITV completes when its condition
holds and else waits for the next poll. -/
def Obligations.MessagesAndSpawn : Prop :=
  ∀ (s : State) (c : Ctx) (h : Hold) (x a : Spec) (la : BitVec 4), s.Issues c → c.Settled h →
    let win := c.window la (specRegs x 1 ++ specRegs a 1)
    let ahead := fun (q : Nat) => (c.s.receivers c.fn c.asid q).filter fun y => y.1 != c.r &&
      match c.f.park with
      | some (.recv _ own) => decide (y.2 < own)
      | _ => true
    let parks := fun (q : BitVec 2) (t : State) => t = ({ c with f := { c.f with park := some (.recv q.toNat
      (match c.f.park with
        | some (.recv _ own) => own
        | _ => 1 + ((c.s.receivers c.fn c.asid q.toNat).map (·.2)).foldl max 0)) } } : Ctx).out
    (∀ (b : BitVec 1) (q : BitVec 2) (m : Msg) (rest : List Msg), c.context.aq.getD q.toNat [] = m :: rest → ahead q.toNat = [] →
      ((c.launch.packet.vtp = 1 ∨ m.stamp ≤ c.context.vns) →
        let t := (c.s.updContext c.fn c.asid fun k => { k with aq := k.aq.set q.toNat rest }).writeBytes (.scr c.blockId)
          (c.uval a).toNat (bytesOfNat 8 m.stamp ++ bytesOfNat 2 m.payload.length ++ bytesOfNat 2 m.src.toNat ++
            bytesOfNat 4 m.tag.toNat ++ m.payload)
        exec (.recv x a la b q) s = .next ((({ c with s := t } : Ctx).setSpec x
          (BitVec.ofNat 32 m.payload.length)).done win)) ∧
      (c.launch.packet.vtp ≠ 1 → c.context.vns < m.stamp →
        exec (.recv x a la 1#1 q) s = .next ((c.setSpec x 0x80000000).done win) ∧
        ∃ t, exec (.recv x a la 0#1 q) s = .next t ∧ parks q t)) ∧
    (∀ q : BitVec 2, (ahead q.toNat ≠ [] ∨ c.context.aq.getD q.toNat [] = []) →
      (∃ t, exec (.recv x a la 0#1 q) s = .next t ∧ parks q t) ∧
      (c.awaits q.toNat (ahead q.toNat) = false →
        exec (.recv x a la 1#1 q) s = .next ((c.setSpec x 0x80000000).done win)) ∧
      (c.awaits q.toNat (ahead q.toNat) = true → ∃ t, exec (.recv x a la 1#1 q) s = .next t ∧ parks q t) ∧
      (c.context.aq.getD q.toNat [] = [] → c.awaits q.toNat (ahead q.toNat) = false)) ∧
    (let k := SendHdr.of (h.data.take 16)
     let finish := fun (t : State) (n : Nat) =>
       let src := if k.host then hostSrc else BitVec.ofNat 16 k.node
       let u := t.updContext ({ c with s := t } : Ctx).fn ({ c with s := t } : Ctx).asid fun y =>
         { y with contracts := discharge src k.tag y.contracts }
       ((({ c with s := u } : Ctx).external.setSpec x (BitVec.ofNat 32 n)).done win)
     (h.arrived = true → ∀ r, c.s.peerAnswer? (h.reqs.getD 0 0) = some r →
       exec (.msend x a la) s = .next (finish c.s (match r with | .data _ | .poisoned => 0 | .refused => 1 | .vfGone => 2))) ∧
     (h.arrived = false → ∀ t n,
       (if k.host then c.s.sendHost c.fn c.asid k (h.data.drop 16)
         else c.s.sendNode c.fn c.asid c.r.wave k (h.data.take 16) (h.data.drop 16)) = .status t n →
       exec (.msend x a la) s = .next (finish t n))) ∧
    (let r := SpawnRec.of h.data
     let n := r.gang * r.nb
     let l := c.launch
     (l.nextBlock + n ≤ 2 ^ 32 →
       exec (.spawn x a la) s = .next ((({ c with s := c.s.spawn c.launchId r } : Ctx).external.setSpec x
         (BitVec.ofNat 32 l.nextBlock)).done win) ∧
       (c.s.spawn c.launchId r).blocks.length = c.s.blocks.length + n ∧
       (c.launchId < c.s.launches.length →
         ((c.s.spawn c.launchId r).launch c.launchId).counter = l.counter + n ∧
         ((c.s.spawn c.launchId r).launch c.launchId).nextBlock = l.nextBlock + n)) ∧
     (2 ^ 32 < l.nextBlock + n → Traps s c (.spawn x a la) { cls := .protection, cause := 1 })) ∧
    (∀ (cond : BitVec 3) y, cond.toNat ≤ 5 → c.virtOut false false 4 0 (c.uval64 a).toNat = .ok y →
      let r := c.s.strongReads c.blockId c.w.core c.sc .dev y.addr 4
      (∀ m, c.strongBad r.1 [y] = some m → exec (.waitv x a la cond) s = .next (c.consumed (some m))) ∧
      (c.strongBad r.1 [y] = none →
      let k := ({ c with s := r.1 } : Ctx).externalIf (2 ≤ c.sc)
      let w : Word := BitVec.ofNat 32 (natOfBytes r.2) &&& loWord (k.uval64 x)
      let v := hiWord (k.uval64 x)
      let holds : Prop := [w = v, w ≠ v, v.toNat ≤ w.toNat, w.toNat < v.toNat, v.toInt ≤ w.toInt, w.toInt < v.toInt].getD
        cond.toNat False
      (holds → exec (.waitv x a la cond) s = .next ((k.watched false [y]).done
          (k.window la (specRegs x 2 ++ specRegs a 2))) ∧
        exec (.waitvPoll x a la cond) s = exec (.waitv x a la cond) s) ∧
      (¬ holds → exec (.waitv x a la cond) s = .next ({ k with f := { k.f with park := some .waitv } } : Ctx).out ∧
        exec (.waitvPoll x a la cond) s = exec (.waitv x a la cond) s)))

namespace Sys2Proof.Claims

/-- The stream context `x` executes the command at hand in `s`. -/
structure Commands (s : State) (x : XCtx) : Prop where
  issuer : s.issuer = .engine x.engine x.k
  bound : s.xctx? x.engine x.k = some x
  going : ∀ code, x.phase ≠ .faulted code

/-- What completion in sequence does to a stream context `y`, whose command ends a loop pass as R298 says. -/
structure CommandPassed (y z : XCtx) : Prop where
  kept : { z with pc := y.pc, loops := y.loops, seq := y.seq, phase := y.phase, xlate := y.xlate } = y
  seq : z.seq = y.seq + 1
  running : z.phase = .running ∧ z.xlate = none
  straight : (∀ l ∈ y.loops.head?, l.last ≠ y.pc) → z.pc = y.pc + 16 ∧ z.loops = y.loops
  pass : ∀ l t, y.loops = l :: t → l.last = y.pc → l.i + 1 < l.count →
    z.pc = l.first ∧ z.loops = { l with i := l.i + 1 } :: t
  ends : ∀ l t, y.loops = l :: t → l.last = y.pc → l.count ≤ l.i + 1 → (∀ m ∈ t.head?, m.last ≠ y.pc) →
    z.pc = y.pc + 16 ∧ z.loops = t

/-- The command completes in sequence: the machine is `t` but for its stream context, which goes on from `y`. -/
def Proceeds (s t : State) (x : XCtx) (i : Instr) (y : XCtx) : Prop :=
  ∃ z, CommandPassed y z ∧ exec i s = .next (t.updXctx x.engine x.k fun _ => z)

/-- The command completes and its program goes on at `pc`: a loop whose body does not hold `pc` ends (R298). -/
def Goes (s : State) (x : XCtx) (i : Instr) (loops : List XLoop) (pc : Nat) : Prop :=
  exec i s = .next (s.updXctx x.engine x.k fun _ => { x with
    pc := pc, loops := loops.filter fun l => decide (l.first ≤ pc) && decide (pc ≤ l.last), seq := x.seq + 1
    phase := .running, xlate := none })

/-- The command stops its program with an engine fault, the machine being `t` (R187); the address in its error record is
the model's (DEDUCED, log entry 82). -/
def Stops (s t : State) (x : XCtx) (i : Instr) (code : Nat) : Prop :=
  ∃ addr, exec i s = .next (t.engineFault x.engine x.k code addr)

/-- The word that an XWAIT reads at its home, in device or host memory, under its mask (R181, R301). -/
def waitWord (s : State) (x : XCtx) (p : Place) (pa : Nat) (mask : Word) : Word :=
  BitVec.ofNat 32 (natOfBytes ((List.range 4).map fun i => s.homeByte x.launch p (pa + i))) &&& mask

end Sys2Proof.Claims

/-- R296 to R298, R301: the stream commands that move no tile: XSTRIDE and XSLOT set what they name, XLOOP and XJUMP go
on where they say, a skipped body ends the pass of every body that ends with it, XHALT unbinds the context, XWAIT completes when its test holds, XFLAG writes its word at the home,
and XARRIVE counts, on a tagged granule alone (R301); a bad command stops the program with the fault of its rule. A
faulted context stays bound, as R279 has it, where R181 ends its binding (DESIGN CHOICE, log entry 68). -/
def Obligations.StreamCommands : Prop :=
  ∀ (s : State) (x : XCtx) (k : BitVec 3) (len : BitVec 8) (count lo hi ds off value mask w : Word) (slot : BitVec 4)
    (kind cond : BitVec 2) (cell : BitVec 14) (n : BitVec 18), Commands s x →
    (let v := (pair lo hi).toNat
     let i : Instr := .xstride k lo hi ds
     (k.toNat ≤ 5 → Proceeds s s x i { x with ss := x.ss.set k.toNat (pair lo hi), ds := x.ds.set k.toNat ds }) ∧
     (k = 6#3 → ds = 0 → v < 2 ^ 53 → Proceeds s s x i { x with sb := v }) ∧
     (k = 7#3 → ds = 0 → v < 2 ^ 53 → Proceeds s s x i { x with cb := v }) ∧
     (6 ≤ k.toNat → ds = 0 → 2 ^ 53 ≤ v → Stops s s x i 6) ∧ (6 ≤ k.toNat → ds ≠ 0 → Stops s s x i 1)) ∧
    (kind.toNat < 3 → (kind = 2#2 → off.toNat < 65536 ∧ n = 0) →
      Proceeds s s x (.xslot slot kind lo off cell n) { x with
        slots := (x.slots.filter fun d => d.idx != slot.toNat) ++
          [{ idx := slot.toNat, kind := kind.toNat, block := lo.toNat, off := off.toNat, len := 32 * n.toNat
             cell := 16 * cell.toNat }] }) ∧
    (let body := if len = 0 then 256 else len.toNat
     let last := x.pc + 16 * body
     let inner : XLoop := { k := k.toNat, i := 0, count := count.toNat, first := x.pc + 16, last := last }
     (k.toNat ≤ 5 → (∀ l ∈ x.loops, l.k ≠ k.toNat) → (∀ l ∈ x.loops.head?, last ≤ l.last) →
       (count = 0 → Proceeds s s x (.xloop k len count) { x with pc := last }) ∧
       (count ≠ 0 → Goes s x (.xloop k len count) (inner :: x.loops) (x.pc + 16))) ∧
     ((6 ≤ k.toNat ∨ (∃ l ∈ x.loops, l.k = k.toNat) ∨ ∃ l ∈ x.loops.head?, l.last < last) →
       Stops s s x (.xloop k len count) 1)) ∧
    Goes s x (.xjump off) x.loops (((x.pc : Int) + 16 * off.toInt) % 2 ^ 64).toNat ∧
    Proceeds s s x .xfence x ∧
    Gives s .xhalt (fun t => t.xctx? x.engine x.k = none ∧
      ∀ e k, (e, k) ≠ (x.engine, x.k) → t.xctx? e k = s.xctx? e k) ∧
    (∀ va, x.flagAt off = some va →
      (∀ cause p, s.engineRead x va = (.fault cause, p) → cond.toNat < 3 →
        Stops s s x (.xwait cond off value mask) 3) ∧
      (∀ pa p, s.engineRead x va = (.ok pa, p) → cond.toNat < 3 →
        let r := waitWord s x p pa mask
        let holds := if cond = 0#2 then r = value else if cond = 1#2 then r ≠ value else value.toNat ≤ r.toNat
        ∀ i ∈ [Instr.xwait cond off value mask, .xwaitPoll cond off value mask],
          (holds → Proceeds s s x i x) ∧
          (¬ holds → exec i s = .next (s.updXctx x.engine x.k fun _ => { x with phase := .waiting, xlate := none }))) ∧
      (∀ pa, s.translate none (s.launch x.launch).fn (s.launch x.launch).asid
          { write := true, priv := (s.launch x.launch).priv } va = .ok pa →
        Proceeds s ((List.range 4).foldl (fun t j => t.writeHome x.launch .dev (pa + j) ((bytesOfWord value).getD j 0)) s) x
          (.xflag off value) x)) ∧
    (x.flagAt off = none → Stops s s x (.xflag off value) 6 ∧
      (cond.toNat < 3 → Stops s s x (.xwait cond off value mask) 6)) ∧
    Stops s s x (.xwait 3#2 off value mask) 1 ∧
    (∀ f, s.fill x slot = .ok f → (s.block f.block).cell? f.cell = none → Stops s s x (.xarrive slot count) 5) ∧
    (∀ f c, s.fill x slot = .ok f → (s.block f.block).cell? f.cell = some c →
      (c.arrival = false → Stops s s x (.xarrive slot count) 5) ∧
      (c.arrival = true → c.unit = 0 → count ≠ 0 → Stops s s x (.xarrive slot count) 1) ∧
      (∀ t, s.countUnits f.block f.cell (if c.unit = 0 then 1 else count.toNat) = some t → (c.unit = 0 → count = 0) →
        Proceeds s t x (.xarrive slot count) x)) ∧
    Stops s s x (.unassignedCommandCode w) 1 ∧
    (∀ code, ∃ z, (s.engineFault x.engine x.k code).xctx? x.engine x.k = some z ∧ z.phase = .faulted code ∧
      z.locked = false)

namespace Sys2Proof.Claims

/-- A transfer of the moves `ms` into `place` at `base`, in its two phases: it uses the handle it fills through, waiting or
not (R190), takes its fill lock over `n` bytes from `lo`, and, with the lock held, writes its bytes, counts them and lets
the lock go (R182, R299). A source that may not be
read stops it with fault 3, and a cell of no arrival kind with fault 5; the bytes before the stop stay written. Where the
surroundings have it pause after some destination sectors, it goes on from there, and a forced invalidation stops it
with fault 4, what it has written counted (R193). -/
def Moves (s : State) (x : XCtx) (i : Instr) (f : Fill) (place : Place) (base lo n : Nat) (nc : Bool)
    (ms : List Move) : Prop :=
  let used := (s.useHandle x f).1
  let y := (s.useHandle x f).2
  (∀ h, f.handle = some h → x.user = none → y = { x with user := some (f.core, h) }) ∧
  (x.locked = false → ms ≠ [] → x.stale = none →
    (∀ t, used.lockFill y { f with place := place } lo n = some t →
      exec i s = .next (t.updXctx x.engine x.k fun _ => { y with phase := .running, locked := true })) ∧
    (used.lockFill y { f with place := place } lo n = none →
      exec i s = .next (used.updXctx x.engine x.k fun _ => { y with phase := .parked }))) ∧
  (∀ h, x.stale = some h →
    Stops s (used.poisonFill y f base nc ((ms.take x.written).map fun m => m.2.toNat) h) x i 4) ∧
  ((x.locked = true ∨ ms = []) → x.stale = none →
    let rest := ms.drop x.written
    let m := match x.quota with
      | none => rest.length
      | some q => sectorMoves base q none rest
    (∀ bs va, used.gatherMoves y (rest.take m) = .bad bs va → Stops s (used.writeMoves place base bs) x i 3) ∧
    (∀ bs, used.gatherMoves y (rest.take m) = .all bs →
      let t := used.writeMoves place base bs
      (m < rest.length → exec i s = .next (t.updXctx x.engine x.k fun _ =>
        { y with phase := .running, written := x.written + m, quota := none })) ∧
      (rest.length ≤ m → ∀ code, t.countFill y f base nc (ms.map fun m => m.2.toNat) = .error code →
        Stops s t x i code) ∧
      (rest.length ≤ m → ∀ u, t.countFill y f base nc (ms.map fun m => m.2.toNat) = .ok u →
        Proceeds s (u.unlockFill x.engine x.k) x i
          { y with locked := false, user := none, stale := none, written := 0, quota := none }) ∧
      (∀ b p, place = .typed b p → b < s.blocks.length → ((s.block b).typed p).wf = true → ∀ a,
        t.readPlace place a = match bs.reverse.find? fun m => base + m.1 == a with
          | some m => m.2.1
          | none => used.readPlace place a)))

end Sys2Proof.Claims

/-- R182, R190, R193, R299, R300: XFER moves a tile whose byte c of row r goes from src0 + r·sp + c to dst0 + r·dp + c, XGATHER takes
the rows that its index list names, and XSCALE copies a run of bytes into the scratchpad: each is checked, takes its
lock, and then writes and counts. That XSCALE does not clip at CB is DEDUCED (log entry 44); that through a slot of kind 2
it is a user of the handle, and that it locks the scratchpad bytes it writes, is the model's (log entry 74). -/
def Obligations.StreamTransfers : Prop :=
  ∀ (s : State) (x : XCtx) (slot : BitVec 4) (nc : Bool) (dp : BitVec 8) (off sp doff : Word) (nb nr : BitVec 16)
    (f : Fill), Commands s x → s.fill x slot = .ok f →
    let pitch := if dp = 0 then nb.toNat else 16 * dp.toNat
    let tile := fun (row : Nat → Int) => (List.range nr.toNat).flatMap fun r =>
      (List.range nb.toNat).filterMap fun (c : Nat) =>
        if x.cb ≠ 0 ∧ (x.cb : Int) ≤ row r + (c : Int) then none
        else some (row r + (c : Int), x.dstAt + ((r * pitch + c : Nat) : Int))
    (let i : Instr := .xfer slot nc dp off nb nr sp
     let ms := tile fun r => x.srcAt off + (r : Int) * sp.toInt
     ((nb = 0 ∨ nr = 0) → Proceeds s s x i x) ∧
     (nb ≠ 0 → nr ≠ 0 →
       (x.locked = false → movesOk f.len ms = false → Stops s s x i 6) ∧
       (movesOk f.len ms = true → Moves s x i f f.place f.off f.off f.len nc ms))) ∧
    (let i : Instr := .xgather slot nc dp off nb nr sp
     let list := x.srcAt off
     (list % 4 ≠ 0 → Stops s s x i 6) ∧
     (list % 4 = 0 → 0 ≤ list →
       ((nb = 0 ∨ nr = 0) → Proceeds s s x i x) ∧
       (nb ≠ 0 → nr ≠ 0 → ∀ idx, (s.useHandle x f).1.gatherIndex (s.useHandle x f).2 list.toNat nr.toNat = .ok idx →
         let ms := tile fun r => (x.sb : Int) + ((idx.getD r 0).toNat : Int) * sp.toInt
         (movesOk f.len ms = false → Stops s (s.useHandle x f).1 x i 6) ∧
         (movesOk f.len ms = true → Moves s x i f f.place f.off f.off f.len nc ms)))) ∧
    (let i : Instr := .xscale slot nc off doff nb
     let n := nb.toNat
     let d := doff.toNat
     let ms := (List.range n).map fun (j : Nat) => (x.srcAt off + (j : Int), (j : Int))
     let sized := n % 32 = 0 ∧ 32 ≤ n ∧ n ≤ 4096 ∧ d % 32 = 0
     (¬ sized → Stops s s x i 1) ∧
     (sized → x.locked = false → (s.block f.block).scrSize < d + n → Stops s s x i 6) ∧
     (sized → d + n ≤ (s.block f.block).scrSize → movesOk n ms = true →
       (x.locked = false → (s.block f.block).tagged d n = true → Stops s s x i 5) ∧
       ((x.locked = true ∨ (s.block f.block).tagged d n = false) →
         Moves s x i f (.scr f.block) d d n nc ms)))

/-- R28, R33, R55, R58, R59, R159, R207, R215, R216, R226, R274, R324: when a wave's settle windows end, the oldest stores
that are due leave the window, held instructions that are due have settled, and the wave reads what it read before. A wave
whose streams have ended retires 128 cycles later, once its last commit can go: it commits to block and gives up its
operand latch, its stack cache and its backing slot. With the last wave of a block the block goes, once its copies have
drained and no lock keeps its sectors (log entry 21): its allocations and cells are free, and its launch counts one block less, with
what its waves have discarded from their queues; at zero the launch is complete, its provisional sectors are final, and its completion
record of status 0 is written. A GROW that waits is granted as one that issues; a
copy that has settled ends, clears its entries and counts its token down, with the first error kept, and a block whose
waves have all retired goes with its last copy (log entry 21), as an error end of its launch goes on (log entry 53). A
store issued behind a commit of its wave that has not acted stays in the window, one into CBUF apart (DEDUCED, log entry
78). -/
def Obligations.WaitsEnd : Prop :=
  (∀ (s : State) (w : Nat), w < s.waves.length → (s.wave w).exitedAt = none → (s.block (s.blockOf w)).stopping = false →
    (s.launch (s.launchOf w)).phase ≠ .ending →
    let due := fun (seq issued : Nat) =>
      decide (issued + 128 ≤ s.cycle) && !((s.wave w).loads.any fun l => decide (l.id < seq))
    Gives s (.settleWindowExpiry w) fun t =>
      (let goes := fun (p : Pend) => due p.seq p.issued && !s.behind w p.slice p.fence
       (t.wave w).pend =
         ((s.wave w).pend.filter fun p => !p.key.place.direct).dropWhile (fun p => goes p && !(s.wave w).commitsBefore p.seq) ++
           ((s.wave w).pend.filter fun p => p.key.place.direct).dropWhile goes) ∧
      (∀ sl e f h, ((s.wave w).stream sl).frag e = some f → f.hold = some h →
        ∃ g, ((t.wave w).stream sl).frag e = some g ∧ g.pc = f.pc ∧ g.mask = f.mask ∧
          g.hold = some { h with settled := h.settled || (due h.seq h.issued && !s.behind w sl h.fence) }) ∧
      (∀ p a, p.direct = false → t.loadByte w none p a = s.loadByte w none p a)) ∧
  (∀ (s : State) (w t0 : Nat), w < s.waves.length →
    let wv := s.wave w
    let b := s.blockOf w
    let lid := s.launchOf w
    b < s.blocks.length → lid < s.launches.length → wv.exitedAt = some t0 → wv.retired = false → wv.frags = [] → wv.pend = [] →
    wv.privPend = [] → wv.loads = [] → (s.block b).stopping = false → (s.launch lid).phase ≠ .ending →
    (s.cycle < t0 + 128 ∨ s.commitReady w 1 wv.seq = false → exec (.settleWindowExpiry w) s = .next s) ∧
    (t0 + 128 ≤ s.cycle → s.commitReady w 1 wv.seq = true →
      let c := (s.commit w 1 wv.seq true).1
      let l := c.launch lid
      let free := if wv.holdsSlot then l.backing.filter (· != wv.backing) else l.backing
      let left := if wv.decoupled then (wv.sq.map fun q => q.entries.length).sum else 0
      let u := { c with
        launches := c.launches.set lid { l with backing := free }
        waves := c.waves.set w { c.wave w with
          retired := true, latch := none, holdsSlot := false, cache := [], priv := [], sqdrop := wv.sqdrop + left } }
      ((∃ x ∈ (s.block b).waves, x ≠ w ∧ (s.wave x).retired = false) ∨ u.sweepReady b = false →
        exec (.settleWindowExpiry w) s = .next u) ∧
      (u.sweepReady b = true → (∀ x ∈ (s.launch lid).prov, x.key.place = .dev) → Gives s (.settleWindowExpiry w) fun t =>
        (t.wave w).retired = true ∧ (t.block b).phase = .retired ∧ (t.block b).cells = [] ∧ (t.block b).scr = [] ∧
        (t.block b).wbuf = [] ∧ (t.block b).abuf = [] ∧ (t.block b).cbuf = [] ∧
        ((s.block b).shadow = true → (t.launch lid).counter = (s.launch lid).counter) ∧
        ((s.block b).shadow = false →
          let drops := (((s.block b).waves.map fun x => (u.wave x).sqdrop)).sum
          (t.launch lid).counter = (s.launch lid).counter - 1 ∧
          (t.launch lid).sqdrop = (s.launch lid).sqdrop + drops ∧
          ((s.launch lid).counter ≠ 1 → 0 < (s.launch lid).counter → (t.launch lid).phase = (s.launch lid).phase) ∧
          ((s.launch lid).counter = 1 → (s.launch lid).phase = .running →
            (t.launch lid).phase = .complete ∧ (t.launch lid).prov = [] ∧ ∃ v : State, let k := v.launch lid
              k.sqdrop = (s.launch lid).sqdrop + drops ∧ k.prov = [] ∧ k.packet = (s.launch lid).packet ∧
              (∀ x ∈ v.engines, x.launch ≠ lid) ∧
              t = v.completion k.queue k.ringIdx 0 0 k.sqdrop k.naks k.err (v.context k.fn k.asid).vns
                (k.packet.succ.filter (· != 0)).length k.chained (some lid)))))) ∧
  (∀ (s : State) (c : Ctx) (n : Nat), c.r.slice = .c → Ctx.of? s c.r = some c → c.f.park = some (.grow n) →
    (∀ x ∈ c.st.live, x.1 ≠ c.r.entry → ∀ m, x.2.park ≠ some (.grow m)) → n ≤ c.s.freeRegs c.w.core →
    (∀ w ∈ c.fellows, w.growing = true → c.w.age ≤ w.age) →
    exec (.growGrant c.r.wave) s = .next ({ c with
      w := { c.w with vcount := c.w.vcount + n }
      st := { c.st with regs := { c.st.regs with v := c.st.regs.v ++ List.replicate n Vec.zero } } } : Ctx).done) ∧
  (∀ (s u : State) (core idx done : Nat) (c : Copy) (e : Option (Nat × Nat)),
    (s.core core).copies.find? (fun x => x.idx == idx) = some c → c.issued + 128 ≤ s.cycle →
    (∀ l ∈ (s.wave c.wave).loads, c.issued ≤ l.issued) → (∀ p ∈ (s.wave c.wave).pend, c.issued ≤ p.issued) →
    (s.copyWalk core { c with park := none } (nestSize c.counts + 1) = .finished u done ∧ e = none ∨
      ∃ code cause, s.copyWalk core { c with park := none } (nestSize c.counts + 1) = .failed u done code cause ∧
        e = some (code, cause)) →
    let t := u.copyEnd core c done e
    let b := (s.wave c.wave).block
    exec (.copyComplete core idx) s = .next ((t.sweepBlock b).goEnd (s.launchOf c.wave)) ∧
    ((∃ w ∈ (t.block b).waves, (t.wave w).retired = false) → (t.launch (s.launchOf c.wave)).phase ≠ .ending →
      exec (.copyComplete core idx) s = .next t) ∧
    (∀ d ∈ (t.core core).copies, d.idx ≠ c.idx) ∧
    (c.wave < u.waves.length → c.token < (u.wave c.wave).tokens.length →
      let k := (u.wave c.wave).tokens.getD c.token {}
      let k' := (t.wave c.wave).tokens.getD c.token {}
      k'.count = k.count - 1 ∧ (k.err = true → k' = { k with count := k.count - 1 }) ∧
      (k.err = false → ∀ code cause, e = some (code, cause) →
        k'.err = true ∧ k'.code = code ∧ k'.cause = cause ∧ k'.index = BitVec.ofNat 32 done)))

namespace Sys2Proof.Claims

/-- The context of a function and ASID is `k` in `t`. -/
def Holds (t : State) (fn asid : Nat) (k : Context) : Prop := t.context? fn asid = some k

end Sys2Proof.Claims

/-- R305, R306, R347: an armed timer whose deadline has come fires once in a running context: it is no longer armed, the
TWAITs on it wake, and with TE set a TIMER falls due in a live owner stream; no other timer fires. -/
def Obligations.TimerFires : Prop :=
  ∀ (s : State) (fn asid : Nat) (n : Fin 4) (k : Context), Holds s fn asid k →
    let t := k.timers.getD n {}
    (k.running = true → t.armed = true → t.deadline.toNat ≤ k.vns → Gives s (.timerFire fn asid n) fun u =>
      Holds u fn asid { k with timers := k.timers.set n { t with armed := false, fired := true } } ∧
      u.memories = s.memories ∧
      (∀ w sl e f, w < s.waves.length → (s.wave w).retired = false → (s.launch (s.launchOf w)).fn = fn →
        (s.launch (s.launchOf w)).asid = asid → ((s.wave w).stream sl).frag e = some f →
        ∃ g, ((u.wave w).stream sl).frag e = some g ∧
          (f.park = some (.timer n false) → g = { f with park := some (.timer n true) }) ∧
          (f.park ≠ some (.timer n false) → g = f)) ∧
      (∀ w sl, t.owner = some (w, sl) → w < s.waves.length → t.te = true → ((s.wave w).stream sl).ended = false →
        ((u.wave w).stream sl).timers = ((s.wave w).stream sl).timers ++ [(n.val, BitVec.ofNat 32 k.vns)])) ∧
    (k.running = false ∨ t.armed = false ∨ k.vns < t.deadline.toNat → exec (.timerFire fn asid n) s = .next s)

/-- R307, R349 to R359, R370, R376, R379: a message that arrives at a context joins its queue with a stamp that never falls
behind the one before, and its contract is kept; a full queue or context refuses it, and one that is gone, or where no
packet has been accepted since its creation, has no room for it; a deliverable head lets the RECV that came first go on;
low patience sends one DEFER, counted in the context that sent the message, or one alarm; a DEFER received is counted;
MSGGO reports the status of the message in MSGBUF, of which at most 256 payload bytes go (DEDUCED, log entry 60), into the
queue of a free choice between its own and the header's (DESIGN CHOICE, log entry 60). -/
def Obligations.MessageEvents : Prop :=
  ∀ (s : State) (fn : Nat) (q : Fin 4) (src : BitVec 16) (tag rby : Word) (da : Bool) (payload : List Byte)
    (k : Context), payload.length ≤ 256 →
    let asid := s.wasxAsid fn
    let i : Instr := .messageArrival fn q src tag rby da payload
    let answers := fun (t : State) (a : PeerAnswer) => t.outbox.peerReplies = (src.setWidth 12, a) :: s.outbox.peerReplies
    let answersNode := isVf fn = true → src.getLsbD 15 = false → (s.function fn).nen = true ∧ s.tornNode (s.function fn).node = false
    (Holds s fn asid k → answersNode → (s.function fn).tear = none → k.ended = false → k.migrated = false →
      k.accepted = true →
      let room := (k.aq.getD q []).length < 64 ∧ (rby = 0 ∨ k.contracts.length < 256)
      (room → q.val < k.aq.length → q.val < k.lastStamp.length → Gives s i fun t => ∃ k' stamp, Holds t fn asid k' ∧
        answers t (.data []) ∧ t.memories = s.memories ∧
        k'.aq.getD q [] = k.aq.getD q [] ++ [{ stamp := stamp, src := src, tag := tag, payload := payload }] ∧
        (∀ p, p ≠ q.val → k'.aq.getD p [] = k.aq.getD p []) ∧
        k'.lastStamp.getD q none = some stamp ∧ (∀ p, k.lastStamp.getD q none = some p → p ≤ stamp) ∧
        (k.running = true → k.lastStamp.getD q none = none → stamp = k.vns) ∧
        (rby = 0 → k'.contracts = k.contracts) ∧
        (rby ≠ 0 → k'.contracts = k.contracts ++ [{ src := src, tag := tag, da := da, arrived := s.time,
                                                    due := s.time + rby.toNat * Config.unitsPerTick }])) ∧
      (¬ room → Gives s i fun t => answers t .refused ∧ t.contexts = s.contexts)) ∧
    ((s.context? fn asid = none ∨ (s.function fn).tear.isSome = true ∨ ¬ answersNode ∨
        Holds s fn asid k ∧ (k.ended = true ∨ k.migrated = true ∨ k.accepted = false)) →
      Gives s i fun t => answers t .vfGone ∧ t.contexts = s.contexts) ∧
    (∀ a, Holds s fn a k →
      (∀ m r, k.running = true → (k.aq.getD q []).head? = some m → m.stamp ≤ k.vns → r ∈ s.receivers fn a q →
        (∀ y ∈ s.receivers fn a q, y ≠ r → r.2 < y.2) →
        exec (.messageDeliverable fn a q) s = .next { s with agenda := .issue r.1 :: s.agenda }) ∧
      (s.receivers fn a q = [] → exec (.messageDeliverable fn a q) s = .next s) ∧
      (∀ j x, k.contracts[j]? = some x →
        let low := x.due < ((s.time + 8 * Config.unitsPerTick : Nat) : Int) ∧ 0 < x.owed ∧ k.migrated = false
        (low → x.da = true → Gives s (.patienceLow fn a j) fun t => ∃ k', Holds t fn a k' ∧
          k'.contracts = k.contracts.set j { x with
            due := x.due + ((x.owed + 8) * Config.unitsPerTick : Nat), granted := x.granted + x.owed } ∧
          (∀ f' a' y, x.sender = some (f', a') → Holds s f' a' y →
            ∃ y', Holds t f' a' y' ∧ y'.defers = y.defers + 1) ∧
          t.outbox.defers = x.fields fn s.time (x.owed + 8) :: s.outbox.defers) ∧
        (low → x.da = false → x.alarmed = false → Gives s (.patienceLow fn a j) fun t => ∃ k', Holds t fn a k' ∧
          k'.contracts = k.contracts.set j { x with alarmed := true } ∧ t.outbox = s.outbox) ∧
        (¬ low → exec (.patienceLow fn a j) s = .next s)) ∧
      Gives s (.deferReceive fn a tag rby) fun t =>
        Holds t fn a { k with defers := k.defers + 1 } ∧ t.waves = s.waves ∧ t.memories = s.memories) ∧
    (s.presents fn = false → ∀ c, exec (.msggo fn c) s = .next s) ∧
    (s.presents fn = true → ∀ c : BitVec 2,
      let b := (s.function fn).msgbuf
      let r := s.arriveMessage fn (s.msggoQueue fn c) 0x8000#16 (BitVec.ofNat 32 (b.nat 8 4)) (b.nat 12 4) ((b.read 3).getLsbD 0)
        (b.reads 16 (min 256 (b.nat 4 2)))
      Gives s (.msggo fn c) fun t => (t.function fn).msgst = BitVec.ofNat 32 r.2 ∧ t.contexts = r.1.contexts)

/-- R31, R55, R63, R322 to R329, R369, R370, R372: a wake moves a queue's tail; a free slot goes to the queue that is next
for it; a round and a turn begin; a packet core rejects a packet with its code or accepts it with its seed blocks; the
first block in the order of admission is placed on its core, its waves with the lanes of its shape; spinning blocks make
room, or their queue drains where the save area has no room for them. Which blocks may be displaced, and where the displaced
stand in the order, is DEDUCED (log entry 49). -/
def Obligations.Scheduling : Prop :=
  ∀ (s : State),
    (∀ (fn : Nat) (value : Word),
      let q := value.toNat % 4096
      let id := if isVf fn then (s.function fn).qbase + q else q
      s.up = true → (isVf fn = true → (s.function fn).en = true ∧ (s.function fn).tear = none ∧ q < 2 ^ (s.function fn).qlog) →
      s.ownerOf id = fn → Gives s (.hostWake fn value) fun t => (t.queue id).tail = value.toNat / 65536 ∧
        (∀ j, j ≠ id → t.queue j = s.queue j) ∧ ((s.qent id).valid = true → t.memories = s.memories)) ∧
    (∀ q slot, s.nextQueue (s.ownerOf q) = some q → s.freeSlot (s.ownerOf q) = some slot →
      slot ∈ s.slotsOf (s.ownerOf q) ∧ (∀ k ∈ s.queues, k.slot ≠ some slot) ∧
      Gives s (.slotGrant q) fun t =>
        (t.queue q).slot = some slot ∧ (t.queue q).ring = (s.qent q).ring ∧ (t.queue q).cring = (s.qent q).cring ∧
        (t.queue q).lsz = (s.qent q).lsz ∧ (t.queue q).asid = s.queueAsid q ∧ (t.queue q).waited = 0) ∧
    Gives s .rotationRound (fun t => t.sched.round = s.sched.round + 1 ∧ t.sched.roundStart = s.time) ∧
    (s.turnOver = true → ∀ nxt,
      (match s.sched.turnFn with
        | some fn => (s.slicedRunnable.find? fun g => decide (fn < g)).orElse fun _ => s.slicedRunnable.head?
        | none => s.slicedRunnable.head?) = some nxt →
      Gives s .sliceEnd fun t => t.sched.turnFn = some nxt ∧ t.sched.turnStart = s.time) ∧
    (s.turnOver = false → exec .sliceEnd s = .next s) ∧
    (∀ q va ring chained bs, (s.queue q).slot.isSome = true → (s.queue q).preempted = false → (s.queue q).draining = false →
      (s.queue q).xlate = none → ((s.context? (s.queue q).fn (s.queue q).asid).map fun c => c.ended && !c.torn).getD false = false →
      s.unheld q = true → s.nextPacket q = some (va, ring, chained) → (s.qent q).valid = true →
      s.readVirt (s.queue q).fn (s.queue q).asid va 128 true = .ok bs →
      (s.packetCode (s.queue q).fn (s.qent q) bs ≠ 0 → Gives s (.packetAccept q) fun t =>
        t = s.rejectPacket q ring (s.packetCode (s.queue q).fn (s.qent q) bs) chained ∧
        t.launches = s.launches ∧ t.blocks = s.blocks) ∧
      (s.packetCode (s.queue q).fn (s.qent q) bs = 0 → leAt bs 48 8 = 0 → Gives s (.packetAccept q) fun t =>
        let p := Packet.of bs
        let l := t.launch s.launches.length
        t.launches.length = s.launches.length + 1 ∧ (∀ n < s.launches.length, t.launch n = s.launch n) ∧
        l.fn = (s.queue q).fn ∧ l.asid = (s.queue q).asid ∧ l.queue = q ∧ l.phase = .running ∧ l.counter = p.gang ∧
        l.priv = (if isVf (s.queue q).fn then (if p.gpriv then 1 else 0) else 2) ∧
        t.blocks.length = s.blocks.length + p.gang ∧ (∀ n < s.blocks.length, t.block n = s.block n) ∧
        (∀ n < p.gang, (t.block (s.blocks.length + n)).launch = s.launches.length ∧
          (t.block (s.blocks.length + n)).index = n ∧ (t.block (s.blocks.length + n)).phase = .waiting) ∧
        (t.context? (s.queue q).fn (s.queue q).asid).isSome = true)) ∧
    (∀ b core, s.ready.head? = some b → s.placeCore b = some core →
      s.fits b core = true ∧ s.placeable (s.block b).launch core = true ∧
      Gives s (.blockPlace b) fun t => (t.block b).phase = .resident ∧ (t.block b).core = core ∧
        ((s.block b).phase = .waiting →
          let lanes := (s.launch (s.block b).launch).packet.lanes
          (t.block b).waves.length = (lanes + 31) / 32 ∧
          ∀ i w, (t.block b).waves[i]? = some w → (t.wave w).block = b ∧ (t.wave w).idx = i ∧ (t.wave w).core = core ∧
            ∀ l < 32, (t.wave w).live.getLsbD l = decide (32 * i + l < lanes))) ∧
    (∀ b vs, s.mayDisplace b = true → (s.block b).shadow = false → s.placeCore b = none → s.spinVictims b = some vs →
      Gives s (.spinPreemption b) fun t => ∀ v ∈ vs, (t.block v).phase = .saved ∨ (t.block v).stopping = true ∨
        (t.queue (s.launch (s.block v).launch).queue).draining = true)

/-- R336, R339, R343 to R346, R359, R407: a queue that is stopped with save issues nothing more, and gives up its slot, or
drains, once it has settled; a debugger's stop and its end and a single step change the context as their rules say; an
export makes the migration record of a stopped context, with L, and an import takes t_stop from L and GAP: the exporter
itself readmits a context, and another module takes up a copy of the record's context, launches, blocks and waves (what a
record holds and how it is taken up, a debugger's stop with it, is a DESIGN CHOICE, log entry 76), but in recovery neither
happens; the host's end of a launch ends that launch alone,
with an error record, and at once where no copy is in flight. -/
def Obligations.StopsAndResumes : Prop :=
  ∀ (s : State),
    (∀ q, (s.queues.find? fun k => k.id == q).isSome = true → (s.queue q).slot.isSome = true →
      (Gives s (.preemption q true) fun t =>
        (t.queue q).slot = none ∨ (t.queue q).preempted = true ∨ (t.queue q).draining = true) ∧
      (s.queueQuiet q = false → Gives s (.preemption q true) fun t =>
        (t.queue q).preempted = true ∧ t.waves = s.waves ∧ t.blocks = s.blocks ∧ t.memories = s.memories) ∧
      ((s.queue q).preempted = false → (s.blocksIn q .resident).isEmpty = true → Gives s (.preemption q false) fun t =>
        (t.queue q).slot = none)) ∧
    (∀ q save, (s.queue q).slot = none → exec (.preemption q save) s = .next s) ∧
    (∀ fn asid k, Holds s fn asid k →
      (Gives s (.debuggerStop fn asid) fun t => (t.context fn asid).debugStop = true ∧ (t.context fn asid).stepping = false) ∧
      (Gives s (.resume fn asid) fun t => (t.context fn asid).debugStop = false ∧ (t.context fn asid).stepping = false ∧
        (t.context fn asid).running = (s.contextRuns fn asid && !k.ended) ∧ t.memories = s.memories ∧
        ((∀ c ∈ s.contexts, c.running = true → s.contextRuns c.fn c.asid = true ∧ c.ended = false) → t.waves = s.waves)) ∧
      (s.inRecovery = false → k.migrated = false → k.running = false → s.mappedOf fn asid = [] →
        Gives s (.migrationExport fn asid) fun t =>
        Holds t fn asid { k with migrated := true, exporting := false, exported := s.time } ∧ t.waves = s.waves ∧ t.memories = s.memories ∧
        ∃ r, t.records = s.records ++ [r] ∧ r.fn = fn ∧ r.asid = asid ∧ r.lapse = (s.time : Int) - k.tstop ∧ r.at' = s.time ∧
          r.context.vtime = k.vtime ∧ r.context.aq = k.aq ∧ r.context.contracts = k.contracts ∧
          r.context.counters = k.counters ∧ r.context.shapes = k.shapes) ∧
      (s.inRecovery = false → k.migrated = false → k.running = true ∨ s.mappedOf fn asid ≠ [] →
        Gives s (.migrationExport fn asid) fun t =>
        (t.context fn asid).exporting = true ∧ (t.context fn asid).migrated = false ∧
        (t.context fn asid).debugStop = k.debugStop) ∧
      (s.inRecovery = false → k.migrated = true → ∀ gap r, s.records.find? (fun r => r.fn == fn && r.asid == asid) = some r →
        Gives s (.migrationImport fn asid gap) fun t =>
          let g := gap * Config.unitsPerTick
          let away := s.time - k.exported
          let d : Int := (s.time : Int) - (k.exported : Int) - (g : Int)
          Holds t fn asid { k with
            migrated := false, tstop := (s.time : Int) - r.lapse - (g : Int)
            contracts := k.contracts.map fun x => { x with
              arrived := ((x.arrived : Int) + d).toNat, stopped := x.stopped - away + g, due := x.due + d } } ∧
          t.records.length + 1 = s.records.length)) ∧
    (∀ fn asid gap r, s.inRecovery = false → s.context? fn asid = none → s.records.find? (fun r => r.fn == fn && r.asid == asid) = some r →
      Gives s (.migrationImport fn asid gap) fun t =>
        let g := gap * Config.unitsPerTick
        (∃ k, Holds t fn asid k ∧ k.tstop = (s.time : Int) - r.lapse - (g : Int) ∧ k.vtime = r.context.vtime ∧
          k.running = false ∧ k.migrated = false ∧ k.debugStop = r.context.debugStop ∧ k.aq = r.context.aq ∧ k.counters = r.context.counters ∧
          k.contracts.map (·.due) = r.context.contracts.map (fun x => x.due + ((s.time : Int) - (r.at' : Int) - (g : Int))) ∧
          k.contracts.map (·.stopped) = r.context.contracts.map (fun x => x.stopped + g)) ∧
        t.launches.length = s.launches.length + r.launches.length ∧ t.blocks.length = s.blocks.length + r.blocks.length ∧
        t.waves.length = s.waves.length + r.waves.length ∧ (∀ w < s.waves.length, t.wave w = s.wave w) ∧
        t.memories.dev = s.memories.dev ∧ t.memories.host = s.memories.host ∧ (r.marks = [] → t.memories = s.memories)) ∧
    (∀ fn asid gap, s.records.find? (fun r => r.fn == fn && r.asid == asid) = none ∨ s.inRecovery = true →
      exec (.migrationImport fn asid gap) s = .next s) ∧
    (∀ fn asid, s.inRecovery = true → exec (.migrationExport fn asid) s = .next s) ∧
    (∀ (r : FragRef) core,
      let b := (s.wave r.wave).block
      let l := s.launch (s.block b).launch
      let k := s.context l.fn l.asid
      (s.context? l.fn l.asid).isSome = true → k.debugStop = true → k.running = false → k.exporting = false →
      k.migrated = false → k.ended = false → (∀ q ∈ s.mappedOf l.fn l.asid, (s.queue q).preempted = false) → (s.frag r).isSome = true → r.wave ∈ (s.block b).waves →
      (s.queue l.queue).slot.isSome = true → (s.block b).phase = .saved → s.placeCore b = some core →
      Gives s (.singleStep r.wave r.slice r.entry) fun t => t.agenda.head? = some (.issue r) ∧
        (t.block b).phase = .resident ∧ (t.block b).core = core ∧ (t.context l.fn l.asid).stepping = true ∧
        (t.context l.fn l.asid).released = some r ∧ (t.context l.fn l.asid).debugStop = false) ∧
    (∀ l, l < s.launches.length → (s.launch l).phase = .running → (s.launch l).ending = {} → Gives s (.hostEndsLaunch l) fun t =>
      ((t.launch l).phase = .ending ∨ (t.launch l).phase = .error) ∧
      ((∀ k ∈ s.cores, k.copies = []) → (t.launch l).phase = .error) ∧ (∀ n, n ≠ l → (t.launch n).phase = (s.launch n).phase) ∧
      ∃ r ∈ t.maint.log, r.kind = 8 ∧ r.pc = 0 ∧ r.info = 0)

/-- R18, R390 to R401, R405: a strike rolls its core, where HMAP enables it, back and is logged, and no memory changes; an
uncore strike is logged and restarts the commands of its die's engines that have paused before they counted; a replayed
result that differs is logged with the ESEQ of its issue; screens are compared or given up; a corrected error is counted
for its bank of its device; an uncorrectable one poisons its sector, and where it stands is kept for the records of its
consumption; an error in an array of a core that HMAP disables is none; the hourly summary writes one record for each bank
and row counted in an hour that is over; a self-test waits for its core to be empty and excludes it when it fails; a dump
that runs writes whole chunks and ends in its status. The model's: what a rollback goes back to and how a trap is undone
(log entry 11), the order of the dump's errors and what its chunks hold (log entry 26), that an excluded or disabled core
takes no strike, what a self-test clears and what RES reads while one runs (log entry 58), and where an uncorrectable error
of a stack cache or an L1 leaves its mark (log entry 77). -/
def Obligations.ReliabilityEvents : Prop :=
  ∀ (s : State),
    (∀ core, s.coreEnabled core = false → exec (.strikeReport core) s = .next s) ∧
    (∀ core, s.coreEnabled core = true → Gives s (.strikeReport core) fun t => t.memories = s.memories ∧
      (∃ r ∈ t.maint.log, r.kind = 1 ∧ r.loc = locOfCore core 0) ∧
      (∀ w, w ∉ s.residents core → t.wave w = s.wave w) ∧
      ∀ w snap, w ∈ s.residents core → w < s.waves.length → (s.wave w).retired = false →
        (s.core core).performed = [] → (s.core core).inputs = [] →
        (s.core core).history.find? (fun h => h.wave == w && decide (s.cycle - 128 ≤ h.cycle)) = some snap →
        (t.wave w).c.regs = snap.state.c.regs ∧ (t.wave w).lq = snap.state.lq ∧
        ∀ e f, snap.state.c.frag e = some f → ∃ g, (t.wave w).c.frag e = some g ∧ g.pc = f.pc ∧ g.mask = f.mask ∧
          g.ctl = f.ctl ∧ g.stack = f.stack) ∧
    (∀ die, exec (.uncoreStrike die) s = .next { s with
      engines := s.engines.map fun x => if x.engine / 8 = die % 4 then { x with written := 0 } else x
      maint := { s.maint with log := s.maint.log ++ [{ kind := 1, loc := die % 4, rtime := s.ticks }] } }) ∧
    (∀ core quad n word r, ((s.core core).replay.filter fun x => x.quadrant == quad)[n]? = some r →
      (r.result = word → Gives s (.replayCheck core quad n word) fun t =>
        r ∉ (t.core core).replay ∧ t.maint = s.maint ∧ t.waves = s.waves ∧ t.memories = s.memories) ∧
      (r.result ≠ word → Gives s (.replayCheck core quad n word) fun t =>
        ∃ x ∈ t.maint.log, x.kind = 2 ∧ x.loc = locOfCore core quad ∧ x.eseq = r.eseq ∧
          x.pc = r.pc + (if r.slice = .a then 1 else 0))) ∧
    (∀ id x, s.maint.screens.find? (fun y => y.id == id) = some x →
      (s.screenDone x = true → Gives s (.screenCompare id) fun t =>
        (∃ y, t.maint.screens.find? (fun y => y.id == id) = some y ∧ y.done = true) ∧ t.blocks = s.blocks ∧
        ((s.block x.primary).signature = (s.block (x.shadow.getD 0)).signature → t.maint.log = s.maint.log) ∧
        ((s.block x.primary).signature ≠ (s.block (x.shadow.getD 0)).signature →
          ∃ r, t.maint.log = s.maint.log ++ [r] ∧ r.kind = 3)) ∧
      (s.screenLate x = true → Gives s (.screenAbandon id) fun t =>
        t.maint.log = s.maint.log ∧ t.maint.screensAbandoned = s.maint.screensAbandoned + 1 ∧
        ∃ y, t.maint.screens.find? (fun y => y.id == id) = some y ∧ y.done = true)) ∧
    (∀ place bank col row corrected, s.eccAbsent place = true → exec (.eccError place bank col row corrected) s = .next s) ∧
    (∀ place bank col row, s.eccAbsent place = false →
      (∀ k, eccHome place = some k → Gives s (.eccError place bank col row false) fun t =>
        t.poisoned k.place (32 * k.idx) = true ∧ t.memories.dev = s.memories.dev ∧ t.memories.host = s.memories.host ∧
        t.maint.log = s.maint.log ∧
        (k, { s.eccSite place with bank := bank.toNat, col := col.toNat, row := row.toNat }) ∈ t.maint.sites) ∧
      (∀ w word j, place = .stack w word j → w < s.waves.length → (∃ k ∈ (s.wave w).cache, k.word = word) →
        Gives s (.eccError place bank col row false) fun t => t.memories = s.memories ∧ t.maint.log = s.maint.log ∧
          ∃ k ∈ (t.wave w).cache, k.word = word ∧ j ∈ k.marked) ∧
      (∀ loc i, place = .array 8 loc i → Gives s (.eccError place bank col row false) fun t =>
        ∀ x ∈ t.lines, x.core = some (coreOfLoc loc) → x.key = { place := .dev, idx := i } → x.marked = true) ∧
      (Gives s (.eccError place bank col row true) fun t => t.memories = s.memories ∧
        ∃ x ∈ t.maint.banks, x.bank = bank.toNat ∧ x.row = row.toNat ∧ x.device = eccDevice place ∧ 0 < x.count ∧
          x.lastTick = s.ticks)) ∧
    (let due := fun (x : BankCount) => 0 < x.count ∧ x.noted = false ∧ x.hour < s.ticks / 3600000000
     Gives s .correctedSummary fun t =>
      t.maint.log = s.maint.log ++ (s.maint.banks.filter fun x => decide (due x)).map (fun x =>
        { kind := 4, unit := x.unit, loc := x.place, bank := x.bank, col := x.col, row := x.row, rtime := s.ticks
          count := x.count }) ∧
      t.maint.banks = s.maint.banks.map fun x => if due x then { x with noted := true } else x) ∧
    (∀ core : BitVec 8,
      (s.inRecovery = false → core.toNat ≤ 207 → s.coreEnabled core.toNat = true → s.maint.stestBusy = false →
        exec (.selfTestStart core) s = .next { s with
          maint := { s.maint with stestCore := core.toNat, stestRun := core.toNat, stestBusy := true, stestRes := 0 } }) ∧
      ((s.inRecovery = true ∨ 207 < core.toNat ∨ s.coreEnabled core.toNat = false ∨ s.maint.stestBusy = true) →
        exec (.selfTestStart core) s = .next s)) ∧
    (s.maint.stestBusy = true → s.residents s.maint.stestRun = [] → ∀ pass, Gives s (.selfTestRun pass) fun t =>
      t.maint.stestBusy = false ∧ t.maint.stestRes = (if pass then 1 else 2) ∧ (t.core s.maint.stestRun).handles = [] ∧
      (pass = false → s.maint.stestRun ∈ t.maint.excluded ∧ ∃ r ∈ t.maint.log, r.kind = 9)) ∧
    (s.maint.dmpst.toNat % 4 ≠ 1 → exec .dumpStart s = .next s) ∧
    (s.maint.dmpst.toNat % 4 = 1 →
      ∀ bs, s.readVirt s.maint.dmpFn s.maint.dmpAsid (pair s.maint.dmpdLo s.maint.dmpdHi).toNat 64 = .ok bs →
      let d := Dump.of bs
      let ends := fun (code : Nat) => exec .dumpStart s = .next { s with
        maint := { s.maint with dmpst := BitVec.ofNat 32 (3 + 16 * code) } }
      (d.bad = true → ends 3) ∧
      (d.bad = false → (s.function d.fn).dumpKey = none → ends 4) ∧
      (d.bad = false → (s.function d.fn).dumpKey.isSome = true → s.dumpRunning d = true → ends 1) ∧
      (∀ key, d.bad = false → (s.function d.fn).dumpKey = some key → s.dumpRunning d = false →
        let cs := s.dumpChunks d key
        let n := min cs.length (d.dlen / 4096)
        (∀ c ∈ cs, c.length = 4096) ∧ Gives s .dumpStart fun t => t.maint.log = s.maint.log ∧
          t.maint.dmpst = (if n < cs.length then dumpStatus 3 2 n else dumpStatus 2 0 n)))

/-- R193, R200, R201, R318, R376, R403, R404, R407, R416: a forced invalidation advances a current handle's generation, and frees its
entry at once where nothing uses it; a copy of a line that is evicted goes, what was written into it first reaching the
home where no wider copy stands; a host write reaches host memory and no copy of its sector stays; an
invalidation of translations drops the matching entries and no other, delivers the loads that have been translated, and is
acknowledged, but not in recovery (R407); translations that are filled, and a buffer that has
room, let what waited go on; a flush clears the bins of the lane-cycle record and a sample of a context that is not
sampled changes nothing. The model's: the copies of sectors and what leaves with them (log entry 8), which fragment a
sample takes (log entry 48), die 0's buffer for peers and reports (log entry 67), and what an invalidation delivers and
when it acknowledges (log entry 84). -/
def Obligations.CoherenceAndTranslation : Prop :=
  ∀ (s : State),
    (∀ value : Word,
      let h := value.toNat % 65536
      let core := value.toNat / 65536 % 256
      let e := (s.core core).handle (h % 1024)
      (s.inRecovery = false → core ≤ 207 → e.current h = true → Gives s (.hinv value) fun t =>
        let e' := (t.core core).handle (h % 1024)
        e'.gen = (if 63 ≤ e.gen then 1 else e.gen + 1) ∧ (e.users = 0 → e'.alloc = false) ∧
        (e.users ≠ 0 → e'.deferred = true ∧ e'.users = e.users) ∧
        (∀ x ∈ (t.core core).copies, x.src.handle = some h ∨ x.dst.handle = some h → x.stale = some h) ∧
        t.memories = s.memories ∧ t.waves = s.waves) ∧
      ((s.inRecovery = true ∨ 207 < core ∨ e.current h = false) → exec (.hinv value) s = .next s)) ∧
    (∀ core cluster sector,
      let stands := fun (x : LineCopy) => x.core == core && x.cluster == cluster && x.key.idx == sector
      (Gives s (.eviction core cluster sector) fun t => (∀ x ∈ t.lines, stands x = false) ∧
        ∀ x, core = none → s.lines.filter stands = [x] → x.key.place = .dev → x.launch = none →
          s.memories.dev.wf = true → ∀ i < 32, t.devRead (32 * sector + i) =
            if x.written.getLsbD i then x.bytes.getD i 0 else s.devRead (32 * sector + i)) ∧
      ((∀ x ∈ s.lines, stands x = false) → exec (.eviction core cluster sector) s = .next s)) ∧
    (∀ sector bytes, bytes.length = 32 → s.memories.host.wf = true →
      Gives s (.hostCoherenceInvalidation sector bytes) fun t =>
        (∀ i < 32, t.memories.host.read (32 * sector + i) = bytes.getD i 0) ∧
        (∀ a, a / 32 ≠ sector → t.memories.host.read a = s.memories.host.read a) ∧
        t.memories.dev = s.memories.dev ∧ t.poisoned .host (32 * sector) = false ∧
        ∀ x ∈ t.lines, x.key ≠ { place := .host, idx := sector }) ∧
    (s.inRecovery = true → ∀ fn asid lo hi, exec (.tlbInvalidation fn asid lo hi) s = .next s) ∧
    (s.inRecovery = false → ∀ fn asid lo hi, Gives s (.tlbInvalidation fn asid lo hi) fun t =>
      let hit := fun (x : TlbEntry) => x.fn = fn ∧ x.asid = asid ∧ x.base ≤ hi ∧ lo < x.base + x.size
      (∀ k x, x ∈ (t.core k).tlb ↔ x ∈ (s.core k).tlb ∧ ¬ hit x) ∧
      (∀ k x, x ∈ (t.cluster k).tlb ↔ x ∈ (s.cluster k).tlb ∧ ¬ hit x) ∧
      t.outbox.acks = (fn, asid, lo, hi) :: s.outbox.acks ∧
      ((∀ w ∈ s.wavesOf fn asid, (s.wave w).loads = []) → s.egress = [] → t.memories = s.memories ∧ t.waves = s.waves)) ∧
    (∀ die req r y, s.faults.find? (fun f => f.die == die && f.id == req) = some r → r.who = .frag y →
      y.wave < s.waves.length → Gives s (.translationFill die req) fun t =>
        (∀ f ∈ t.faults, f.id ≠ req) ∧ t.memories = s.memories ∧
        ∀ e f, ((s.wave y.wave).stream y.slice).frag e = some f →
          ((t.wave y.wave).stream y.slice).frag e = some (if f.park = some (.xlate req) then { f with park := none } else f)) ∧
    (∀ die, Gives s (.faultBufferRetry die) fun t =>
      ((∀ f ∈ s.refused, f.die ≠ die) → (die = 0 → ∀ q ∈ s.queues, q.reports = []) → t.memories = s.memories) ∧
      ∀ w sl e f, w < s.waves.length → ((s.wave w).stream sl).frag e = some f →
        ((t.wave w).stream sl).frag e =
          some (if dieOf (s.wave w).core = die ∧ f.park = some .refused then { f with park := none } else f)) ∧
    (∀ fn asid k, Holds s fn asid k →
      (Gives s (.lcFlush fn asid) fun t => (t.context fn asid).lanes.bins = [] ∧
        (t.context fn asid).lanes.en = k.lanes.en ∧ t.waves = s.waves) ∧
      (∀ core, (k.running = false ∨ k.trace.ctl.getLsbD 1 = false) → exec (.traceSample fn asid core) s = .next s) ∧
      (∀ core w, k.running = true → k.trace.ctl.getLsbD 1 = true →
        (s.residents core).find? (fun w => (s.launch (s.launchOf w)).fn == fn && (s.launch (s.launchOf w)).asid == asid &&
          !(s.wave w).retired) = some w →
        exec (.traceSample fn asid core) s = .next (s.trace fn asid 2 core (s.wave w).eseq
          (((s.wave w).frags.head?.map fun f => f.pc).getD 0) 0)))

/-- R366: the writes of a VF's registers that are rejected, those that keep the limits of R365 apart from these: under
EN a change of a field other than EN, TEAR, SLICE and WEIGHT, and an EN that may not rise. A rejected write changes
nothing, and raises ILLEGAL_OPERAND where a SYSW makes it. -/
def Obligations.VfRegisters : Prop :=
  ∀ (s : State) (vf num : Nat) (v : Word), 0x201 ≤ num → num ≤ 0x208 →
    let f := s.function vf
    let g := f.setVfReg num (v &&& vfMask num)
    let others := fun (P : Function → Prop) => ∃ h ∈ s.functions, isVf h.fn = true ∧ h.en = true ∧ h.fn ≠ vf ∧ P h
    let cluster := fun (h : Function) => ∃ k, g.clus.testBit k = true ∧ h.clus.testBit k = true
    let slot := fun (h : Function) => ∃ k, g.sbase ≤ k ∧ k < g.sbase + g.snum ∧ h.sbase ≤ k ∧ k < h.sbase + h.snum
    let asid := fun (h : Function) => ∃ k, g.abase ≤ k ∧ k < g.abase + g.acnt ∧ h.abase ≤ k ∧ k < h.abase + h.acnt
    let frozen := f.en = true ∧ num ≠ 0x207 ∧ ∃ b < 32, (num = 0x201 → b ≠ 0) ∧ (vfMask num).getLsbD b = true ∧
      (f.vfReg num).getLsbD b ≠ v.getLsbD b
    let shut := num = 0x201 ∧ f.en = false ∧ v.getLsbD 0 = true ∧
      ((f.tear.isSome = true ∨ v.getLsbD 2 = true) ∨ (g.ts = false ∧ others fun h => cluster h ∨ slot h) ∨
        (g.ts = true ∧ others fun h => h.ts = false ∧ (cluster h ∨ slot h)) ∨ others asid ∨
        (g.ts = true ∧ g.sliceTicks = 0) ∨ (g.nen = true ∧ others fun h => h.nen = true ∧ h.node = g.node))
    g.inLimits = true →
    (s.writeVf vf num v = none ↔ frozen ∨ shut) ∧
    ((frozen ∨ shut) → s.mregs.vfsel.toNat = vf →
      (∀ fn asid, exec (.registerWrite (.sys fn asid num) (v.setWidth 64)) s = .next s) ∧
      ∀ c h a b, s.Issues c → c.Settled h → (c.uval a).toNat = num → c.uval b = v →
        Traps s c (.sysw a b) { cls := .illegalOperand })

/-- R365, R366, R370, R373, R375, R377 to R382, R411, R412, R414: VFSEL takes a VF number; EN rises and falls; a teardown ends the contexts
of its VF, clears its dump key and refuses the vendor-defined request in hand for it, and completes when its quarantine is
over; counter banks are claimed; CRST ends the launches of a context and makes it new, once none of them is ending any more; a register
write has the effect of its register; a peer's access is answered, and a function that does not stand is gone; a request takes its answer or
lapses; a port counts its flits, retrains after sixteen failures on end, and takes a new key once 2^32 slots have gone
under the old one. In recovery no such register write has an effect (R407). The model's: a request and its answer in
State.peers (log entry 12), what CRST and a teardown remove and keep (log entry 56), the status of a lapsed message
(log entry 57), and that the low bits of a base that the manual leaves out are cleared (log entry 61). -/
def Obligations.PartitionEvents : Prop :=
  ∀ (s : State),
    (∀ v : Word, (s.inRecovery = false → v.toNat ≤ 95 → exec (.vfsel v) s = .next { s with mregs := { s.mregs with vfsel := v } }) ∧
      ((s.inRecovery = true ∨ 95 < v.toNat) → exec (.vfsel v) s = .next s)) ∧
    (s.inRecovery = true → ∀ vf fn asid num (v : Dword), exec (.vfEnable vf) s = .next s ∧ exec (.vfDisable vf) s = .next s ∧
      exec (.tear vf) s = .next s ∧ exec (.registerWrite (.sys fn asid num) v) s = .next s) ∧
    (∀ vf, isVf vf = true → s.inRecovery = false → ∀ t,
      (s.writeVf vf 0x201 ((s.function vf).cfg ||| 1) = some t → (s.function vf).en = false → Gives s (.vfEnable vf) fun u =>
        (u.function vf).en = true ∧ u.trust.mrs.getD 5 0 = (s.extendMr 5 (digestOf (u.function vf).vfBytes)).trust.mrs.getD 5 0) ∧
      (s.writeVf vf 0x201 ((s.function vf).cfg &&& 0xFFFFFFFE) = some t → Gives s (.vfDisable vf) fun u =>
        (u.function vf).en = false) ∧
      (s.writeVf vf 0x201 ((s.function vf).cfg ||| 4) = some t → (s.function vf).tear = none → Gives s (.tear vf) fun u =>
        (u.function vf).tear = some { since := s.time } ∧ (u.function vf).en = false ∧ (u.function vf).dumpKey = none ∧
        u.vendorBusy vf = false ∧
        (∀ cmd payload, s.trust.unfinished.find? (fun x => x.1 == vf) = some (vf, cmd, payload) →
          u.trust.responses.find? (fun r => r.1 == vf) = some (vf, vendorResponse cmd 3)) ∧
        (∀ c ∈ u.contexts, c.fn = vf → c.ended = true ∧ c.torn = true ∧ c.running = false) ∧ (∀ q ∈ u.queues, q.fn ≠ vf) ∧
        ∀ l, l < s.launches.length → (s.launch l).fn = vf → (∃ c ∈ s.contexts, c.fn = vf ∧ c.asid = (s.launch l).asid) →
          (u.launch l).phase ≠ .running)) ∧
    (∀ (vf : Nat) (t : Teardown), (s.function vf).tear = some t →
      (s.quarantineOver vf t = true → Gives s (.teardownComplete vf) fun u => (u.function vf).tear = none) ∧
      (s.quarantineOver vf t = false → exec (.teardownComplete vf) s = .next s)) ∧
    (∀ fn asid (k : Context) (v : Word), Holds s fn asid k → Gives s (.counterClaim fn asid v) fun t => ∃ c : Word,
      Holds t fn asid { k with claims := c } ∧ ∀ b < 4,
        let held := k.claims.getLsbD (4 + b)
        let hcl := k.claims.getLsbD (16 + b)
        c.getLsbD (16 + b) = hcl ∧ c.getLsbD b = v.getLsbD b ∧
        (v.getLsbD b = false → c.getLsbD (4 + b) = false) ∧
        (v.getLsbD b = true → c.getLsbD (4 + b) = (held || !hcl)) ∧
        (v.getLsbD b = true → held = false → hcl = true → c.getLsbD (8 + b) = true)) ∧
    (∀ hcl : BitVec 4, Gives s (.hypervisorClaim hcl) fun t => t.contexts.length = s.contexts.length ∧
      ∀ (i : Nat) (k : Context), s.contexts[i]? = some k → ∃ c : Word, t.contexts[i]? = some { k with claims := c } ∧
        (k.fn ≠ s.mregs.vfsel.toNat → c = k.claims) ∧
        (k.fn = s.mregs.vfsel.toNat → ∀ b < 4, c.getLsbD (16 + b) = hcl.getLsbD b ∧
          c.getLsbD (12 + b) = (hcl.getLsbD b && k.claims.getLsbD (4 + b)) ∧
          c.getLsbD (4 + b) = k.claims.getLsbD (4 + b))) ∧
    (∀ v : Word,
      let fn := if v.getLsbD 7 then 96 else v.toNat % 128
      let asid := v.toNat / 256 % 8192
      let named := v.getLsbD 7 = true ∨ v.toNat % 128 < 96
      (s.up = false ∨ v.getLsbD 31 = false ∨ ¬ named → exec (.crst v) s = .next s) ∧
      (s.up = true → v.getLsbD 31 = true → named → (s.context? fn asid).isSome = true → Gives s (.crst v) fun t =>
        let ends := fun (l : Nat) => l < t.launches.length ∧ (t.launch l).fn = fn ∧ (t.launch l).asid = asid ∧
          (t.launch l).phase = .ending
        ((∀ l, ¬ ends l) → ∃ k, Holds t fn asid k ∧ k.vtime = 0 ∧ k.ended = false ∧ k.accepted = false ∧
          k.timers = List.replicate 4 {} ∧ k.shapes = List.replicate 16 {} ∧ k.counters = List.replicate 32 0 ∧
          k.contracts = [] ∧ k.aq = List.replicate 4 []) ∧
        ((∃ l, ends l) → (t.context fn asid).ended = true ∧ (t.context fn asid).reborn = true) ∧
        (t.function fn).dumpKey = none ∧
        ∀ l, l < s.launches.length → (s.launch l).fn = fn → (s.launch l).asid = asid → (t.launch l).phase ≠ .running)) ∧
    (∀ fn off (v : Dword), exec (.registerWrite (.page fn off) v) s = .next (s.writePage fn off v) ∧
      (s.inRecovery = false → s.presents fn = true → off = 0x008 →
        ((s.writePage fn off v).function fn).winb = v &&& 0xFFFFFFFFFFFFE000)) ∧
    (∀ fn asid num (v : Dword) t, s.inRecovery = false → num ≠ 0 → (sysWritePriv num).isSome = true →
      s.writeSys fn asid 2 num (v.setWidth 32) = some t → exec (.registerWrite (.sys fn asid num) v) s = .next t) ∧
    (∀ fn off ask, isVf fn = false ∨ (s.function fn).en = false ∨ (s.function fn).tear.isSome = true →
      s.peerAccess fadd32 fn off ask = (s, .done .vfGone)) ∧
    (∀ fn node off ask a t, s.peerAccess fadd32 fn off ask = (t, .done a) →
      exec (.peerRequest fn node off ask) s =
        .next { t with outbox := { t.outbox with peerReplies := (node, a) :: t.outbox.peerReplies } }) ∧
    (∀ (id : Nat) (p : PeerReq) (a : PeerAnswer), s.peers[id]? = some p →
      (p.st = .pending → Gives s (.peerReply id a) fun t => t.peers[id]? = some { p with st := .answered a } ∧
        t.waves = s.waves ∧ t.memories = s.memories) ∧
      (∀ b, p.st = .answered b → exec (.peerReply id a) s = .next s) ∧
      (s.time < p.since + 2000 * Config.unitsPerTick → exec (.reservationLapse id) s = .next s) ∧
      (p.since + 2000 * Config.unitsPerTick ≤ s.time → p.st = .pending → Gives s (.reservationLapse id) fun t =>
        t.peers[id]? = some { p with st := .answered (if p.msg then .vfGone else .refused) })) ∧
    (∀ (port : Fin 36) (intact : Bool) (lane : Fin 4) (n : Nat) (p : Port), s.ports[port.val]? = some p → Gives s (.flitReceive port intact lane n) fun t =>
      (intact = true → t.ports[port.val]? = some { p with recvSlots := p.recvSlots + 1, fails := 0 }) ∧
      (intact = false → p.fails + 1 < 16 → t.ports[port.val]? = some { p with
        recvSlots := p.recvSlots + 1, sendSlots := p.sendSlots + 1, fails := p.fails + 1 }) ∧
      (intact = false → 16 ≤ p.fails + 1 → t.ports[port.val]? = some { p with
        recvSlots := p.recvSlots + 1, sendSlots := p.sendSlots + 1, fails := 0, retrains := p.retrains + 1 }) ∧
      ∀ q : Fin 36, q ≠ port → t.ports[q.val]? = s.ports[q.val]?) ∧
    (∀ (port : Fin 36) (p : Port), s.ports[port.val]? = some p →
      (Gives s (.keyRenewal port true) fun t => t.memories = s.memories ∧ t.ports[port.val]? = some (
        if p.recvEpoch ≠ 0 ∧ 2 ^ 32 * p.recvEpoch ≤ p.recvSlots then { p with recvEpoch := p.recvEpoch + 1 } else p)) ∧
      (Gives s (.keyRenewal port false) fun t => t.memories = s.memories ∧ t.ports[port.val]? = some (
        if p.sendEpoch ≠ 0 ∧ 2 ^ 32 * p.sendEpoch ≤ p.sendSlots then { p with sendEpoch := p.sendEpoch + 1 } else p)))

namespace Sys2Proof.Claims

/-- The function's mailbox answers `i` with the bytes `bs`. -/
def Responds (s : State) (fn : Nat) (i : Instr) (bs : List Byte) : Prop :=
  Gives s i fun t => t.trust.responses.find? (fun r => r.1 == fn) = some (fn, bs)

end Sys2Proof.Claims

/-- R406 to R414: a module reset starts boot again, which ends booted with the five measurements of boot or in recovery
with the reason, and goes no further where the fuses fail their check; recovery's commands run one at a time, on the address
and length that they began with; a mailbox that is there answers each request, and one that is not does nothing; EXTEND and
the dump-key requests act within a session alone, at once or when the policy core completes them, and a session with an
unfinished request is busy, which goes with the session; SVMIN never falls; the clock moves one state; a thermal trip holds the module in reset. The
model's: the codes and bodies of the responses and which request takes a while (log entry 15), and that a module reset keeps
the host's memory, that boot stops where the fuses fail, what of the fuses MR3 is extended with, and what RADDR and RLEN count for (log entry 59),
beside the harvest maps of log entry 5. -/
def Obligations.TrustEvents : Prop :=
  ∀ (s : State),
    (Gives s .moduleReset fun t => t.waves = [] ∧ t.launches = [] ∧ t.contexts = [] ∧ t.memories.dev = [] ∧
      t.memories.host = s.memories.host ∧ t.maint.excluded = [] ∧ t.trust.svFuse = s.trust.svFuse ∧
      t.trust.image = s.trust.image ∧
      let fused : Trust := { s.trust with svmin := s.trust.svFuse, keyHashes := s.trust.keyFuses }
      (s.trust.fusesOk = false → t.trust.boot = .halted ∧ t.trust.mrs = List.replicate 8 0) ∧
      (s.trust.fusesOk = true → t.trust.svmin = s.trust.svFuse ∧
        (∀ r, fused.refusal = some r → t.trust.boot = .recovery r ∧ t.trust.mrs = List.replicate 8 0) ∧
        (fused.refusal = none → t.trust.boot = .booted ∧ t.maint.scrseed ≠ 0 ∧ t.mregs.hmap = fullMaps ∧
          t.trust.mrs.getD 3 0 = Config.sha384 (bytesOfNat 48 0 ++
            digestOf (s.trust.fuseBytes ++ fullMaps.flatMap bytesOfWord)) ∧
          t.trust.mrs.drop 4 = List.replicate 4 0 ∧
          ∀ p ∈ t.ports, p.sendEpoch = 1 ∧ p.recvEpoch = 1))) ∧
    (Gives s .thermalTrip fun t => t.trust.boot = .tripped ∧ t.waves = [] ∧ t.launches = [] ∧ t.contexts = []) ∧
    (∀ down, Gives s (.throttle down) fun t =>
      t.clock = (if down then min 3 (s.clock + 1) else s.clock - 1) ∧ t.memories = s.memories ∧ t.waves = s.waves ∧
      t.contexts = s.contexts) ∧
    (∀ v signed, Gives s (.svminRaise v signed) fun t => s.trust.svmin ≤ t.trust.svmin ∧ s.trust.svFuse ≤ t.trust.svFuse ∧
      (signed = true → s.inRecovery = false → v ≤ t.trust.svmin) ∧ (signed = false ∨ s.inRecovery = true → t = s)) ∧
    (s.inRecovery = false → exec .recoveryProgram s = .next s ∧ exec .recoveryReset s = .next s ∧
      ∀ r, exec (.recoveryProgramDone r) s = .next s) ∧
    (s.inRecovery = true →
      (s.trust.rbusy = true → (Gives s .recoveryProgram fun t => t.trust.rresult = 4 ∧ t.trust.rbusy = true) ∧
        (Gives s .recoveryReset fun t => t.trust.rreset = true ∧ t.trust.boot = s.trust.boot) ∧
        ∀ r : BitVec 4, r = 0 ∨ r = 2 ∨ r = 3 → s.trust.rreset = false → Gives s (.recoveryProgramDone r) fun t =>
          t.trust.rbusy = false ∧ t.trust.rresult = r.toNat ∧ (r ≠ 0 → t.trust.image = s.trust.image) ∧
          (r = 0 → t.trust.image = imageOf (s.memories.host.reads s.trust.rsource.toNat s.trust.rcount.toNat))) ∧
      (s.trust.rbusy = false →
        (s.trust.rlen.toNat % 4096 = 0 → 4096 ≤ s.trust.rlen.toNat → s.trust.rlen.toNat ≤ 2 ^ 25 →
          Gives s .recoveryProgram fun t => t.trust.rbusy = true ∧ t.trust.rsource = s.trust.raddr ∧
            t.trust.rcount = s.trust.rlen) ∧
        (s.trust.rlen.toNat % 4096 ≠ 0 ∨ s.trust.rlen.toNat < 4096 ∨ 2 ^ 25 < s.trust.rlen.toNat → Gives s .recoveryProgram fun t => t.trust.rresult = 1 ∧ t.trust.rbusy = false) ∧
        exec .recoveryReset s = exec .moduleReset s)) ∧
    (∀ fn index nonce slot payload, s.presents fn = false →
      ∀ i ∈ [Instr.getVersion fn, .getCapabilities fn, .negotiateAlgorithms fn, .getDigests fn, .getCertificate fn slot,
        .getMeasurements fn index nonce, .keyExchange fn, .finish fn, .endSession fn, .extend fn payload,
        .installDumpKey fn payload, .clearDumpKey fn payload], exec i s = .next s) ∧
    (∀ fn, s.presents fn = true →
      Responds s fn (.getVersion fn) [0x04, 0x00, 0x12] ∧
      Responds s fn (.getCapabilities fn) (0x61 :: freeBytes 10 [] 8) ∧
      (Responds s fn (.negotiateAlgorithms fn) (0x63 :: algorithms) ∧
        Gives s (.negotiateAlgorithms fn) fun t => fn ∈ t.trust.negotiated) ∧
      Responds s fn (.getDigests fn) (0x01 :: 1 :: digestOf (freeBytes 12 [] 1024)) ∧
      Responds s fn (.getCertificate fn 0) (0x02 :: freeBytes 12 [] 1024) ∧
      (∀ slot, slot ≠ 0 → Responds s fn (.getCertificate fn slot) [0x7F]) ∧
      (∀ index nonce, 1 ≤ index → index ≤ 8 → Gives s (.getMeasurements fn index nonce) fun t =>
        ∃ sig, t.trust.responses.find? (fun r => r.1 == fn) =
          some (fn, 0x60 :: (bytesOfNat 48 (s.trust.mrs.getD (index - 1) 0).toNat ++ sig))) ∧
      (∀ index nonce, (index = 0 ∨ 8 < index) → Responds s fn (.getMeasurements fn index nonce) [0x7F]) ∧
      (fn ∈ s.trust.negotiated → Gives s (.keyExchange fn) fun t => fn ∈ t.trust.handshakes) ∧
      (fn ∉ s.trust.negotiated → Responds s fn (.keyExchange fn) [0x7F]) ∧
      (fn ∈ s.trust.handshakes → Gives s (.finish fn) fun t => fn ∈ t.trust.sessions ∧ fn ∉ t.trust.handshakes) ∧
      (fn ∉ s.trust.handshakes → Responds s fn (.finish fn) [0x7F]) ∧
      (fn ∈ s.trust.sessions → Gives s (.endSession fn) fun t => fn ∉ t.trust.sessions ∧ fn ∉ t.trust.slow ∧
        t.vendorBusy fn = false ∧ t.trust.mrs = s.trust.mrs ∧ ∀ f, (t.function f).dumpKey = (s.function f).dumpKey) ∧
      (fn ∉ s.trust.sessions → Responds s fn (.endSession fn) [0x7F]) ∧
      (∀ payload : List Byte, fn ∉ s.trust.sessions →
        Responds s fn (.extend fn payload) (vendorResponse 1 1) ∧
        Responds s fn (.installDumpKey fn payload) (vendorResponse 2 1) ∧
        Responds s fn (.clearDumpKey fn payload) (vendorResponse 3 1)) ∧
      (∀ (a : Byte) (d : List Byte), fn ∈ s.trust.sessions → fn = 96 → (a = 6 ∨ a = 7) → d.length = 48 →
        let i := Instr.extend fn ([1, a, 0, 0] ++ d)
        let extended := fun (t : State) => ∀ j, t.trust.mrs.getD j 0 =
          if j = a.toNat ∧ j < s.trust.mrs.length then Config.sha384 (bytesOfNat 48 (s.trust.mrs.getD j 0).toNat ++ d)
          else s.trust.mrs.getD j 0
        (s.vendorBusy fn = true → Responds s fn i (vendorResponse 1 4)) ∧
        (s.vendorBusy fn = false → fn ∉ s.trust.slow → Responds s fn i (vendorResponse 1 0) ∧ Gives s i extended) ∧
        (s.vendorBusy fn = false → fn ∈ s.trust.slow → Gives s i fun t =>
          t.trust.mrs = s.trust.mrs ∧ t.trust.responses = s.trust.responses ∧ t.vendorBusy fn = true ∧
          extended (t.vendorFinish fn) ∧ (t.vendorFinish fn).vendorBusy fn = false ∧
          (t.vendorFinish fn).trust.responses.find? (fun r => r.1 == fn) = some (fn, vendorResponse 1 0))) ∧
      (∀ key : List Byte, fn ∈ s.trust.sessions → fn < 96 → key.length = 32 →
        let arg : Byte := BitVec.ofNat 8 fn
        (s.vendorBusy fn = true → (s.function fn).tear = none →
          Responds s fn (.installDumpKey fn ([2, arg, 0, 0] ++ key)) (vendorResponse 2 4) ∧
          Responds s fn (.clearDumpKey fn [3, arg, 0, 0]) (vendorResponse 3 4)) ∧
        ((s.function fn).tear = none → s.vendorBusy fn = false → fn ∉ s.trust.slow →
          (Gives s (.installDumpKey fn ([2, arg, 0, 0] ++ key)) fun t =>
            (t.function fn).dumpKey = some (BitVec.ofNat 256 (natOfBytes key))) ∧
          (Gives s (.clearDumpKey fn [3, arg, 0, 0]) fun t => (t.function fn).dumpKey = none)) ∧
        ((s.function fn).tear.isSome = true → Responds s fn (.installDumpKey fn ([2, arg, 0, 0] ++ key)) (vendorResponse 2 3) ∧
          Gives s (.installDumpKey fn ([2, arg, 0, 0] ++ key)) fun t =>
            (t.function fn).dumpKey = (s.function fn).dumpKey)))

/-- R95, R99, R296, R330: one step performs the first thing ordered. A fragment that may issue executes the instruction
that the word at its PC decodes to, and after it come the accounts and one cycle; a stream context executes the command
that the 16 bytes at its PC decode to, and one cycle passes; a fragment that issues alone in a cycle issues as one ordered;
an event is executed by nobody, and a wave that a returning load or a grant changes is kept as it was for a rollback. After
a thermal trip nothing but a module reset has an effect (R414). The order of things is the model's choice (log entries 1
and 2). -/
def Obligations.StepRunsDecoded : Prop :=
  ∀ (s : State) (rest : List Action),
    let now := { s with agenda := rest }
    (s.trust.boot ≠ .tripped →
    (∀ (r : FragRef) (c : Ctx) (pa : Nat) (i : Instr), s.agenda = .issue r :: rest → Ctx.of? now r = some c →
      c.mayIssue = true → c.egressLets = true → c.pending = none → c.f.hold = none → c.f.park = none →
      now.translate (some c.w.core) c.fn c.asid { fetch := true, priv := c.priv } c.f.pc.toNat = .ok pa →
      now.poisoned .dev pa = false →
      let w := wordOfBytes (now.readBytes .dev pa 4)
      decodeWord w = .ok i → i.wellFormed = true → (c.block.shadow = false ∨ unscreens i = false) →
      let here : Ctx := { c with s := now.fillTlb (some c.w.core) c.fn c.asid c.f.pc.toNat }
      step s = match exec i { here.s with issuer := .frag r } with
        | .next t => let u := here.after i w t
          .next (u.tick 1 (c.issues u))
        | .fault e => .fault e
        | .refused e => .refused e) ∧
    (∀ (e k : Nat) (x : XCtx) (pa : Nat) (p : Place) (i : Instr), s.agenda = .command e k :: rest → now.xctx? e k = some x →
      x.mayRun = true → x.phase = .running → x.pc < 2 ^ 53 → now.engineRead x x.pc = (.ok pa, p) →
      decodeCommandBytes (now.readBytes p pa 16) = some i → i.wellFormed = true →
      step s = match exec i { now with issuer := .engine e k } with
        | .next t => .next ({ t with issuer := .none }.tick 1 [])
        | .fault f => .fault f
        | .refused f => .refused f) ∧
    (∀ r, s.agenda = .cycle [r] [] :: rest → (now.issuing r).isSome = true →
      step s = step { s with agenda := .issue r :: rest }) ∧
    (∀ i, s.agenda = .event i :: rest → step s = match exec i { now with issuer := .none } with
      | .next t => .next ((now.eventWaves i).foldl (fun t w => t.keepSnapshot now w) t)
      | .fault f => .fault f
      | .refused f => .refused f) ∧
    (∀ n, s.agenda = .elapse n :: rest → step s = .next (now.tick n []))) ∧
    (s.trust.boot = .tripped → (s.agenda = [] → step s = .fault .heldInReset) ∧
      (s.agenda = .event .moduleReset :: rest → step s = exec .moduleReset { now with issuer := .none }) ∧
      ∀ act, act ≠ Action.event .moduleReset → s.agenda = act :: rest → step s = .next now)

/-- R95, R96, R100, R117, R118: words that the manual writes out decode to the instructions it gives for them, an
unassigned opcode and a reserved field that is not zero do not decode. -/
def Obligations.DecodeWords : Prop :=
  (∀ p ∈ ([(0xF0040530, .idiv (.v 4) (.v 5) 3), (0x37120486, .icmp 2 2 (.v 4) (.s 6)),
      (0x69390303, .fcmp 7 1 (.v 3) (.v 3)), (0x399A9886, .aadd (.s 26) (.s 24) (.s 6)),
      (0x39089802, .aadd (.v 8) (.s 24) (.v 2)), (0xFB008403, .shld (.s 4) 0 3),
      (0x6C03044C, .cvt (.v 3) (.v 4) 2 12), (0x6F080102, .dot4 (.v 8) (.v 1) (.v 2)),
      (0x910505E1, .shflx (.v 5) (.v 5) (.ic 1)), (0x9F060602, .qbcst (.v 6) (.v 6) 2),
      (0x9682C100, .vany (.s 2) (.p 1)), (0x99840700, .redw (.s 4) (.v 7) 0),
      (0x9A090808, .scanw (.v 9) (.v 8) 1 0), (0x0F009C00, .jmpr (.s 28)),
      (0x11CEC200, .cqput (.p 2)), (0x1283CE00, .cqget (.s 3))] : List (Word × Instr)), decodeWord p.1 = .ok p.2) ∧
  (∀ p ∈ ([(0xC0030502, .ldp (.v 3) 5 0 2), (0xC2070206, .lds (.v 7) (.v 2) 0 1 2),
      (0xC509030A, .ldt (.v 9) (.v 3) 0 2 2), (0xCB8A8C0E, .sldd (.s 10) (.s 12) 0 3 2),
      (0xCC8A8C02, .sstd (.s 10) (.s 12) 0 0 2), (0xCE000305, .pfd (.v 3) 0 1 1),
      (0xD204010B, .ldh (.v 4) (.v 1) 0 2 3), (0xDDE18402, .brema (.ic 1) (.s 4) 0 2),
      (0xE1008803, .acpy (.s 8) 0 3), (0xE8008800, .gmmx (.v 0) (.s 8) 0 0),
      (0xEA948803, .cpack (.s 20) (.s 8) 0 1 1), (0xEB108902, .crd (.v 16) (.s 9) 0 2),
      (0xEE838601, .thal (.s 3) (.s 6) 0 1), (0xB28400E0, .time (.s 4) 0),
      (0xFC838401, .recv (.s 3) (.s 4) 0 0 1), (0xFF848601, .waitv (.s 4) (.s 6) 0 1),
      (0x17000042, .trap 0x42), (0xB083E200, .sysr (.s 3) (.ic 2))] : List (Word × Instr)), decodeWord p.1 = .ok p.2) ∧
  decodeWord 0x00000000 = .error .unassigned ∧ decodeWord 0x01000001 = .error .reserved ∧
  decodeWord 0xB28400E2 = .error .operand

/-- R95 to R97, R100, R117, R296: decoding the words of a well-formed instruction or command gives it back, with every
operand at every value that its encoding admits, and a word that decodes is the one word of its instruction. -/
def Obligations.RoundTrip : Prop :=
  (∀ i : Instr, i.wellFormed = true →
    (∀ w, encodeWord i = some w → decodeWord w = .ok i) ∧
    (∀ ws, encodeCommand i = some ws → decodeCommandBytes (ws.flatMap bytesOfWord) = some i)) ∧
  (∀ w i, decodeWord w = .ok i → encodeWord i = some w)

/-- R3, R165: whatever a step does, device and host memory keep their canonical form, so that memories that read the
same are equal; the form is the model's (log entry 4). -/
def Obligations.MemoryFormKept : Prop :=
  ∀ s t : State, s.memWf = true → step s = .next t → t.memWf = true

/-- R9, R326, R380, R395, R399, R406, R409: the machine right after module reset: no launch, block, wave, context, stream
program or fault request, measurement registers and maintenance state at their reset values, and memory that lists
nothing (what it then reads as is log entry 4's choice). -/
def Obligations.ResetState : Prop :=
  State.reset.memWf = true ∧ State.reset.waves = [] ∧ State.reset.blocks = [] ∧ State.reset.launches = [] ∧
  State.reset.contexts = [] ∧ State.reset.engines = [] ∧ State.reset.faults = [] ∧ State.reset.peers = [] ∧
  State.reset.trust.boot = .reset ∧ State.reset.trust.mrs = List.replicate 8 0 ∧ State.reset.maint.excluded = [] ∧
  State.reset.maint.stestBusy = false ∧ State.reset.maint.dmpst = 0 ∧ State.reset.mregs.vfsel = 0 ∧
  (∀ vf, (State.reset.function vf).cfg = 0 ∧ (State.reset.function vf).tear = none) ∧
  (∀ a, State.reset.devRead a = 0) ∧ State.reset.ports.length = 36 ∧ State.reset.clock = 0

/-- R33, R38, R40, R156, R158, R207, R208, R213, R214, R223, R224: SPLIT, EXIT and the commits complete. With room on the
reconvergence stack SPLIT, whatever its predicate holds, pushes one record onto the fragment's stack, divides the
fragment's lanes into those that the predicate takes and those that fall through, and leaves the fragment one of the two
sets that is not empty, or the set that falls through; every register, the other waves and all memory stay. EXIT ends in
its stream the live lanes of the fragment that take part, and no others; the lanes of the wave, its queues and buffered
stores, every other wave, and all memory, stay. When its settle window has ended, CMT.L and SYNC.L complete once the
earlier stores of the wave have settled, no lock keeps a byte that moves and what moves to peers has been accepted; in
a fragment of helper lanes both have no effect (R34; DEDUCED for SYNC, log entry 51). ABT.L completes once the earlier stores have settled, with its status word in
S[x], and ACQ.L completes at once. -/
def Obligations.SplitExitAndCommitsComplete : Prop :=
  ∀ (s : State) (c : Ctx), s.Issues c →
    (∀ (p : BitVec 3) (off : BitVec 10) (j : BitVec 11),
      c.Passes { illegal := j == 0#11, operand := !c.predOk p.toNat, regs := [.p p.toNat] } → c.f.stack.length < 16 →
      ∃ t k, exec (.split p off j) s = .next t ∧ Ctx.of? t c.r = some k ∧
        (∃ r, k.f.stack = r :: c.f.stack) ∧ k.f.park = none ∧
        (k.f.mask = c.f.mask &&& c.rd.pred p.toNat ∨ k.f.mask = c.f.mask &&& ~~~c.rd.pred p.toNat) ∧
        (c.f.mask ≠ 0 → k.f.mask ≠ 0) ∧ k.f.ctl.cc = c.f.ctl.cc ∧ k.st.regs = c.st.regs ∧
        t.memories = s.memories ∧ ∀ w, w ≠ c.r.wave → t.waves[w]? = s.waves[w]?) ∧
    (c.Passes { guard := true, noRegion := true } →
      ∃ t, exec .exit s = .next t ∧
        (∀ l < 32, ((t.wave c.r.wave).stream c.r.slice).exited.getLsbD l =
          (c.st.exited.getLsbD l || c.partLive.getLsbD l)) ∧
        (t.wave c.r.wave).live = c.w.live ∧ (t.wave c.r.wave).lq = c.w.lq ∧ (t.wave c.r.wave).sq = c.w.sq ∧
        (t.wave c.r.wave).wwb = c.w.wwb ∧ t.memories = s.memories ∧ { t with waves := s.waves } = s ∧
        ∀ w, w ≠ c.r.wave → t.waves[w]? = s.waves[w]?) ∧
    ∀ (h : Hold) (x : Spec) (la v : BitVec 4), c.Settled h →
      let out := fun (k : Ctx) => ({ k with s := k.s.writeOutAll k.w.core v.toNat } : Ctx)
      (h.arrived = false → c.allHelpers = false → c.s.commitReady c.r.wave v.toNat h.seq = true →
        (c.out.commit c.r.wave v.toNat h.seq false).2 = [] →
        let c1 := c.reload (c.out.commit c.r.wave v.toNat h.seq false).1
        let c2 := out (({ c1 with f := { c1.f with hold := some { h with arrived := true, reqs := [] } } } : Ctx).externalIf
          (2 ≤ v.toNat))
        exec (.cmt la v) s = .next (c2.done (c2.window la [])) ∧
        exec (.sync la v) s = .next ((c2.acquire v.toNat).done (c2.window la []))) ∧
      (h.arrived = true → c.allHelpers = false →
        (∀ r ∈ h.reqs, ∃ bs, c.s.peerAnswer? r = some (.data bs)) →
        exec (.cmt la v) s = .next ((out c).done (c.window la [])) ∧
        exec (.sync la v) s = .next (((out c).acquire v.toNat).done (c.window la []))) ∧
      (c.allHelpers = true →
        exec (.cmt la v) s = .next (c.done (c.window la [])) ∧
        exec (.sync la v) s = .next (c.done (c.window la []))) ∧
      ((∀ p ∈ c.w.pend, h.seq ≤ p.seq) →
        exec (.abt x la v) s = .next ((((c.reload (c.out.abort c.r.wave v.toNat h.seq).1).setSpec x
          (c.out.abort c.r.wave v.toNat h.seq).2)).done (c.window la (specRegs x 1)))) ∧
      exec (.acq la v) s = .next ((c.acquire v.toNat).done (c.window la []))
end

