-- ==== Sys2Proof/Laws/State.lean ====
section
/-!
SUPPORT. One lemma per field of State and per update of Mem.lean: the update leaves every other field as it was.
-/

namespace Sys2Proof.Machine

/-! updWave changes waves alone. -/

@[simp] theorem State.updWave_agenda (s : State) (w : Nat) (f : Wave → Wave) :
    (s.updWave w f).agenda = s.agenda := rfl
@[simp] theorem State.updWave_issuer (s : State) (w : Nat) (f : Wave → Wave) :
    (s.updWave w f).issuer = s.issuer := rfl
@[simp] theorem State.updWave_cycle (s : State) (w : Nat) (f : Wave → Wave) :
    (s.updWave w f).cycle = s.cycle := rfl
@[simp] theorem State.updWave_time (s : State) (w : Nat) (f : Wave → Wave) :
    (s.updWave w f).time = s.time := rfl
@[simp] theorem State.updWave_clock (s : State) (w : Nat) (f : Wave → Wave) :
    (s.updWave w f).clock = s.clock := rfl
@[simp] theorem State.updWave_memories (s : State) (w : Nat) (f : Wave → Wave) :
    (s.updWave w f).memories = s.memories := rfl
@[simp] theorem State.updWave_blocks (s : State) (w : Nat) (f : Wave → Wave) :
    (s.updWave w f).blocks = s.blocks := rfl
@[simp] theorem State.updWave_launches (s : State) (w : Nat) (f : Wave → Wave) :
    (s.updWave w f).launches = s.launches := rfl
@[simp] theorem State.updWave_cores (s : State) (w : Nat) (f : Wave → Wave) :
    (s.updWave w f).cores = s.cores := rfl
@[simp] theorem State.updWave_clusters (s : State) (w : Nat) (f : Wave → Wave) :
    (s.updWave w f).clusters = s.clusters := rfl
@[simp] theorem State.updWave_lines (s : State) (w : Nat) (f : Wave → Wave) :
    (s.updWave w f).lines = s.lines := rfl
@[simp] theorem State.updWave_egress (s : State) (w : Nat) (f : Wave → Wave) :
    (s.updWave w f).egress = s.egress := rfl
@[simp] theorem State.updWave_faults (s : State) (w : Nat) (f : Wave → Wave) :
    (s.updWave w f).faults = s.faults := rfl
@[simp] theorem State.updWave_nextFault (s : State) (w : Nat) (f : Wave → Wave) :
    (s.updWave w f).nextFault = s.nextFault := rfl
@[simp] theorem State.updWave_refused (s : State) (w : Nat) (f : Wave → Wave) :
    (s.updWave w f).refused = s.refused := rfl
@[simp] theorem State.updWave_engines (s : State) (w : Nat) (f : Wave → Wave) :
    (s.updWave w f).engines = s.engines := rfl
@[simp] theorem State.updWave_contexts (s : State) (w : Nat) (f : Wave → Wave) :
    (s.updWave w f).contexts = s.contexts := rfl
@[simp] theorem State.updWave_functions (s : State) (w : Nat) (f : Wave → Wave) :
    (s.updWave w f).functions = s.functions := rfl
@[simp] theorem State.updWave_queues (s : State) (w : Nat) (f : Wave → Wave) :
    (s.updWave w f).queues = s.queues := rfl
@[simp] theorem State.updWave_peers (s : State) (w : Nat) (f : Wave → Wave) :
    (s.updWave w f).peers = s.peers := rfl
@[simp] theorem State.updWave_sched (s : State) (w : Nat) (f : Wave → Wave) :
    (s.updWave w f).sched = s.sched := rfl
@[simp] theorem State.updWave_mregs (s : State) (w : Nat) (f : Wave → Wave) :
    (s.updWave w f).mregs = s.mregs := rfl
@[simp] theorem State.updWave_maint (s : State) (w : Nat) (f : Wave → Wave) :
    (s.updWave w f).maint = s.maint := rfl
@[simp] theorem State.updWave_trust (s : State) (w : Nat) (f : Wave → Wave) :
    (s.updWave w f).trust = s.trust := rfl
@[simp] theorem State.updWave_ports (s : State) (w : Nat) (f : Wave → Wave) :
    (s.updWave w f).ports = s.ports := rfl
@[simp] theorem State.updWave_outbox (s : State) (w : Nat) (f : Wave → Wave) :
    (s.updWave w f).outbox = s.outbox := rfl
@[simp] theorem State.updWave_records (s : State) (w : Nat) (f : Wave → Wave) :
    (s.updWave w f).records = s.records := rfl

/-! updBlock changes blocks alone. -/

@[simp] theorem State.updBlock_agenda (s : State) (b : Nat) (f : Block → Block) :
    (s.updBlock b f).agenda = s.agenda := rfl
@[simp] theorem State.updBlock_issuer (s : State) (b : Nat) (f : Block → Block) :
    (s.updBlock b f).issuer = s.issuer := rfl
@[simp] theorem State.updBlock_cycle (s : State) (b : Nat) (f : Block → Block) :
    (s.updBlock b f).cycle = s.cycle := rfl
@[simp] theorem State.updBlock_time (s : State) (b : Nat) (f : Block → Block) :
    (s.updBlock b f).time = s.time := rfl
@[simp] theorem State.updBlock_clock (s : State) (b : Nat) (f : Block → Block) :
    (s.updBlock b f).clock = s.clock := rfl
@[simp] theorem State.updBlock_memories (s : State) (b : Nat) (f : Block → Block) :
    (s.updBlock b f).memories = s.memories := rfl
@[simp] theorem State.updBlock_waves (s : State) (b : Nat) (f : Block → Block) :
    (s.updBlock b f).waves = s.waves := rfl
@[simp] theorem State.updBlock_launches (s : State) (b : Nat) (f : Block → Block) :
    (s.updBlock b f).launches = s.launches := rfl
@[simp] theorem State.updBlock_cores (s : State) (b : Nat) (f : Block → Block) :
    (s.updBlock b f).cores = s.cores := rfl
@[simp] theorem State.updBlock_clusters (s : State) (b : Nat) (f : Block → Block) :
    (s.updBlock b f).clusters = s.clusters := rfl
@[simp] theorem State.updBlock_lines (s : State) (b : Nat) (f : Block → Block) :
    (s.updBlock b f).lines = s.lines := rfl
@[simp] theorem State.updBlock_egress (s : State) (b : Nat) (f : Block → Block) :
    (s.updBlock b f).egress = s.egress := rfl
@[simp] theorem State.updBlock_faults (s : State) (b : Nat) (f : Block → Block) :
    (s.updBlock b f).faults = s.faults := rfl
@[simp] theorem State.updBlock_nextFault (s : State) (b : Nat) (f : Block → Block) :
    (s.updBlock b f).nextFault = s.nextFault := rfl
@[simp] theorem State.updBlock_refused (s : State) (b : Nat) (f : Block → Block) :
    (s.updBlock b f).refused = s.refused := rfl
@[simp] theorem State.updBlock_engines (s : State) (b : Nat) (f : Block → Block) :
    (s.updBlock b f).engines = s.engines := rfl
@[simp] theorem State.updBlock_contexts (s : State) (b : Nat) (f : Block → Block) :
    (s.updBlock b f).contexts = s.contexts := rfl
@[simp] theorem State.updBlock_functions (s : State) (b : Nat) (f : Block → Block) :
    (s.updBlock b f).functions = s.functions := rfl
@[simp] theorem State.updBlock_queues (s : State) (b : Nat) (f : Block → Block) :
    (s.updBlock b f).queues = s.queues := rfl
@[simp] theorem State.updBlock_peers (s : State) (b : Nat) (f : Block → Block) :
    (s.updBlock b f).peers = s.peers := rfl
@[simp] theorem State.updBlock_sched (s : State) (b : Nat) (f : Block → Block) :
    (s.updBlock b f).sched = s.sched := rfl
@[simp] theorem State.updBlock_mregs (s : State) (b : Nat) (f : Block → Block) :
    (s.updBlock b f).mregs = s.mregs := rfl
@[simp] theorem State.updBlock_maint (s : State) (b : Nat) (f : Block → Block) :
    (s.updBlock b f).maint = s.maint := rfl
@[simp] theorem State.updBlock_trust (s : State) (b : Nat) (f : Block → Block) :
    (s.updBlock b f).trust = s.trust := rfl
@[simp] theorem State.updBlock_ports (s : State) (b : Nat) (f : Block → Block) :
    (s.updBlock b f).ports = s.ports := rfl
@[simp] theorem State.updBlock_outbox (s : State) (b : Nat) (f : Block → Block) :
    (s.updBlock b f).outbox = s.outbox := rfl
@[simp] theorem State.updBlock_records (s : State) (b : Nat) (f : Block → Block) :
    (s.updBlock b f).records = s.records := rfl

/-! updLaunch changes launches alone. -/

@[simp] theorem State.updLaunch_agenda (s : State) (l : Nat) (f : Launch → Launch) :
    (s.updLaunch l f).agenda = s.agenda := rfl
@[simp] theorem State.updLaunch_issuer (s : State) (l : Nat) (f : Launch → Launch) :
    (s.updLaunch l f).issuer = s.issuer := rfl
@[simp] theorem State.updLaunch_cycle (s : State) (l : Nat) (f : Launch → Launch) :
    (s.updLaunch l f).cycle = s.cycle := rfl
@[simp] theorem State.updLaunch_time (s : State) (l : Nat) (f : Launch → Launch) :
    (s.updLaunch l f).time = s.time := rfl
@[simp] theorem State.updLaunch_clock (s : State) (l : Nat) (f : Launch → Launch) :
    (s.updLaunch l f).clock = s.clock := rfl
@[simp] theorem State.updLaunch_memories (s : State) (l : Nat) (f : Launch → Launch) :
    (s.updLaunch l f).memories = s.memories := rfl
@[simp] theorem State.updLaunch_waves (s : State) (l : Nat) (f : Launch → Launch) :
    (s.updLaunch l f).waves = s.waves := rfl
@[simp] theorem State.updLaunch_blocks (s : State) (l : Nat) (f : Launch → Launch) :
    (s.updLaunch l f).blocks = s.blocks := rfl
@[simp] theorem State.updLaunch_cores (s : State) (l : Nat) (f : Launch → Launch) :
    (s.updLaunch l f).cores = s.cores := rfl
@[simp] theorem State.updLaunch_clusters (s : State) (l : Nat) (f : Launch → Launch) :
    (s.updLaunch l f).clusters = s.clusters := rfl
@[simp] theorem State.updLaunch_lines (s : State) (l : Nat) (f : Launch → Launch) :
    (s.updLaunch l f).lines = s.lines := rfl
@[simp] theorem State.updLaunch_egress (s : State) (l : Nat) (f : Launch → Launch) :
    (s.updLaunch l f).egress = s.egress := rfl
@[simp] theorem State.updLaunch_faults (s : State) (l : Nat) (f : Launch → Launch) :
    (s.updLaunch l f).faults = s.faults := rfl
@[simp] theorem State.updLaunch_nextFault (s : State) (l : Nat) (f : Launch → Launch) :
    (s.updLaunch l f).nextFault = s.nextFault := rfl
@[simp] theorem State.updLaunch_refused (s : State) (l : Nat) (f : Launch → Launch) :
    (s.updLaunch l f).refused = s.refused := rfl
@[simp] theorem State.updLaunch_engines (s : State) (l : Nat) (f : Launch → Launch) :
    (s.updLaunch l f).engines = s.engines := rfl
@[simp] theorem State.updLaunch_contexts (s : State) (l : Nat) (f : Launch → Launch) :
    (s.updLaunch l f).contexts = s.contexts := rfl
@[simp] theorem State.updLaunch_functions (s : State) (l : Nat) (f : Launch → Launch) :
    (s.updLaunch l f).functions = s.functions := rfl
@[simp] theorem State.updLaunch_queues (s : State) (l : Nat) (f : Launch → Launch) :
    (s.updLaunch l f).queues = s.queues := rfl
@[simp] theorem State.updLaunch_peers (s : State) (l : Nat) (f : Launch → Launch) :
    (s.updLaunch l f).peers = s.peers := rfl
@[simp] theorem State.updLaunch_sched (s : State) (l : Nat) (f : Launch → Launch) :
    (s.updLaunch l f).sched = s.sched := rfl
@[simp] theorem State.updLaunch_mregs (s : State) (l : Nat) (f : Launch → Launch) :
    (s.updLaunch l f).mregs = s.mregs := rfl
@[simp] theorem State.updLaunch_maint (s : State) (l : Nat) (f : Launch → Launch) :
    (s.updLaunch l f).maint = s.maint := rfl
@[simp] theorem State.updLaunch_trust (s : State) (l : Nat) (f : Launch → Launch) :
    (s.updLaunch l f).trust = s.trust := rfl
@[simp] theorem State.updLaunch_ports (s : State) (l : Nat) (f : Launch → Launch) :
    (s.updLaunch l f).ports = s.ports := rfl
@[simp] theorem State.updLaunch_outbox (s : State) (l : Nat) (f : Launch → Launch) :
    (s.updLaunch l f).outbox = s.outbox := rfl
@[simp] theorem State.updLaunch_records (s : State) (l : Nat) (f : Launch → Launch) :
    (s.updLaunch l f).records = s.records := rfl

/-! updCore changes cores alone. -/

@[simp] theorem State.updCore_agenda (s : State) (k : Nat) (f : Core → Core) :
    (s.updCore k f).agenda = s.agenda := rfl
@[simp] theorem State.updCore_issuer (s : State) (k : Nat) (f : Core → Core) :
    (s.updCore k f).issuer = s.issuer := rfl
@[simp] theorem State.updCore_cycle (s : State) (k : Nat) (f : Core → Core) :
    (s.updCore k f).cycle = s.cycle := rfl
@[simp] theorem State.updCore_time (s : State) (k : Nat) (f : Core → Core) :
    (s.updCore k f).time = s.time := rfl
@[simp] theorem State.updCore_clock (s : State) (k : Nat) (f : Core → Core) :
    (s.updCore k f).clock = s.clock := rfl
@[simp] theorem State.updCore_memories (s : State) (k : Nat) (f : Core → Core) :
    (s.updCore k f).memories = s.memories := rfl
@[simp] theorem State.updCore_waves (s : State) (k : Nat) (f : Core → Core) :
    (s.updCore k f).waves = s.waves := rfl
@[simp] theorem State.updCore_blocks (s : State) (k : Nat) (f : Core → Core) :
    (s.updCore k f).blocks = s.blocks := rfl
@[simp] theorem State.updCore_launches (s : State) (k : Nat) (f : Core → Core) :
    (s.updCore k f).launches = s.launches := rfl
@[simp] theorem State.updCore_clusters (s : State) (k : Nat) (f : Core → Core) :
    (s.updCore k f).clusters = s.clusters := rfl
@[simp] theorem State.updCore_lines (s : State) (k : Nat) (f : Core → Core) :
    (s.updCore k f).lines = s.lines := rfl
@[simp] theorem State.updCore_egress (s : State) (k : Nat) (f : Core → Core) :
    (s.updCore k f).egress = s.egress := rfl
@[simp] theorem State.updCore_faults (s : State) (k : Nat) (f : Core → Core) :
    (s.updCore k f).faults = s.faults := rfl
@[simp] theorem State.updCore_nextFault (s : State) (k : Nat) (f : Core → Core) :
    (s.updCore k f).nextFault = s.nextFault := rfl
@[simp] theorem State.updCore_refused (s : State) (k : Nat) (f : Core → Core) :
    (s.updCore k f).refused = s.refused := rfl
@[simp] theorem State.updCore_engines (s : State) (k : Nat) (f : Core → Core) :
    (s.updCore k f).engines = s.engines := rfl
@[simp] theorem State.updCore_contexts (s : State) (k : Nat) (f : Core → Core) :
    (s.updCore k f).contexts = s.contexts := rfl
@[simp] theorem State.updCore_functions (s : State) (k : Nat) (f : Core → Core) :
    (s.updCore k f).functions = s.functions := rfl
@[simp] theorem State.updCore_queues (s : State) (k : Nat) (f : Core → Core) :
    (s.updCore k f).queues = s.queues := rfl
@[simp] theorem State.updCore_peers (s : State) (k : Nat) (f : Core → Core) :
    (s.updCore k f).peers = s.peers := rfl
@[simp] theorem State.updCore_sched (s : State) (k : Nat) (f : Core → Core) :
    (s.updCore k f).sched = s.sched := rfl
@[simp] theorem State.updCore_mregs (s : State) (k : Nat) (f : Core → Core) :
    (s.updCore k f).mregs = s.mregs := rfl
@[simp] theorem State.updCore_maint (s : State) (k : Nat) (f : Core → Core) :
    (s.updCore k f).maint = s.maint := rfl
@[simp] theorem State.updCore_trust (s : State) (k : Nat) (f : Core → Core) :
    (s.updCore k f).trust = s.trust := rfl
@[simp] theorem State.updCore_ports (s : State) (k : Nat) (f : Core → Core) :
    (s.updCore k f).ports = s.ports := rfl
@[simp] theorem State.updCore_outbox (s : State) (k : Nat) (f : Core → Core) :
    (s.updCore k f).outbox = s.outbox := rfl
@[simp] theorem State.updCore_records (s : State) (k : Nat) (f : Core → Core) :
    (s.updCore k f).records = s.records := rfl

/-! updCluster changes clusters alone. -/

@[simp] theorem State.updCluster_agenda (s : State) (k : Nat) (f : Cluster → Cluster) :
    (s.updCluster k f).agenda = s.agenda := rfl
@[simp] theorem State.updCluster_issuer (s : State) (k : Nat) (f : Cluster → Cluster) :
    (s.updCluster k f).issuer = s.issuer := rfl
@[simp] theorem State.updCluster_cycle (s : State) (k : Nat) (f : Cluster → Cluster) :
    (s.updCluster k f).cycle = s.cycle := rfl
@[simp] theorem State.updCluster_time (s : State) (k : Nat) (f : Cluster → Cluster) :
    (s.updCluster k f).time = s.time := rfl
@[simp] theorem State.updCluster_clock (s : State) (k : Nat) (f : Cluster → Cluster) :
    (s.updCluster k f).clock = s.clock := rfl
@[simp] theorem State.updCluster_memories (s : State) (k : Nat) (f : Cluster → Cluster) :
    (s.updCluster k f).memories = s.memories := rfl
@[simp] theorem State.updCluster_waves (s : State) (k : Nat) (f : Cluster → Cluster) :
    (s.updCluster k f).waves = s.waves := rfl
@[simp] theorem State.updCluster_blocks (s : State) (k : Nat) (f : Cluster → Cluster) :
    (s.updCluster k f).blocks = s.blocks := rfl
@[simp] theorem State.updCluster_launches (s : State) (k : Nat) (f : Cluster → Cluster) :
    (s.updCluster k f).launches = s.launches := rfl
@[simp] theorem State.updCluster_cores (s : State) (k : Nat) (f : Cluster → Cluster) :
    (s.updCluster k f).cores = s.cores := rfl
@[simp] theorem State.updCluster_lines (s : State) (k : Nat) (f : Cluster → Cluster) :
    (s.updCluster k f).lines = s.lines := rfl
@[simp] theorem State.updCluster_egress (s : State) (k : Nat) (f : Cluster → Cluster) :
    (s.updCluster k f).egress = s.egress := rfl
@[simp] theorem State.updCluster_faults (s : State) (k : Nat) (f : Cluster → Cluster) :
    (s.updCluster k f).faults = s.faults := rfl
@[simp] theorem State.updCluster_nextFault (s : State) (k : Nat) (f : Cluster → Cluster) :
    (s.updCluster k f).nextFault = s.nextFault := rfl
@[simp] theorem State.updCluster_refused (s : State) (k : Nat) (f : Cluster → Cluster) :
    (s.updCluster k f).refused = s.refused := rfl
@[simp] theorem State.updCluster_engines (s : State) (k : Nat) (f : Cluster → Cluster) :
    (s.updCluster k f).engines = s.engines := rfl
@[simp] theorem State.updCluster_contexts (s : State) (k : Nat) (f : Cluster → Cluster) :
    (s.updCluster k f).contexts = s.contexts := rfl
@[simp] theorem State.updCluster_functions (s : State) (k : Nat) (f : Cluster → Cluster) :
    (s.updCluster k f).functions = s.functions := rfl
@[simp] theorem State.updCluster_queues (s : State) (k : Nat) (f : Cluster → Cluster) :
    (s.updCluster k f).queues = s.queues := rfl
@[simp] theorem State.updCluster_peers (s : State) (k : Nat) (f : Cluster → Cluster) :
    (s.updCluster k f).peers = s.peers := rfl
@[simp] theorem State.updCluster_sched (s : State) (k : Nat) (f : Cluster → Cluster) :
    (s.updCluster k f).sched = s.sched := rfl
@[simp] theorem State.updCluster_mregs (s : State) (k : Nat) (f : Cluster → Cluster) :
    (s.updCluster k f).mregs = s.mregs := rfl
@[simp] theorem State.updCluster_maint (s : State) (k : Nat) (f : Cluster → Cluster) :
    (s.updCluster k f).maint = s.maint := rfl
@[simp] theorem State.updCluster_trust (s : State) (k : Nat) (f : Cluster → Cluster) :
    (s.updCluster k f).trust = s.trust := rfl
@[simp] theorem State.updCluster_ports (s : State) (k : Nat) (f : Cluster → Cluster) :
    (s.updCluster k f).ports = s.ports := rfl
@[simp] theorem State.updCluster_outbox (s : State) (k : Nat) (f : Cluster → Cluster) :
    (s.updCluster k f).outbox = s.outbox := rfl
@[simp] theorem State.updCluster_records (s : State) (k : Nat) (f : Cluster → Cluster) :
    (s.updCluster k f).records = s.records := rfl

/-! updContext changes contexts alone. -/

@[simp] theorem State.updContext_agenda (s : State) (fn asid : Nat) (f : Context → Context) :
    (s.updContext fn asid f).agenda = s.agenda := rfl
@[simp] theorem State.updContext_issuer (s : State) (fn asid : Nat) (f : Context → Context) :
    (s.updContext fn asid f).issuer = s.issuer := rfl
@[simp] theorem State.updContext_cycle (s : State) (fn asid : Nat) (f : Context → Context) :
    (s.updContext fn asid f).cycle = s.cycle := rfl
@[simp] theorem State.updContext_time (s : State) (fn asid : Nat) (f : Context → Context) :
    (s.updContext fn asid f).time = s.time := rfl
@[simp] theorem State.updContext_clock (s : State) (fn asid : Nat) (f : Context → Context) :
    (s.updContext fn asid f).clock = s.clock := rfl
@[simp] theorem State.updContext_memories (s : State) (fn asid : Nat) (f : Context → Context) :
    (s.updContext fn asid f).memories = s.memories := rfl
@[simp] theorem State.updContext_waves (s : State) (fn asid : Nat) (f : Context → Context) :
    (s.updContext fn asid f).waves = s.waves := rfl
@[simp] theorem State.updContext_blocks (s : State) (fn asid : Nat) (f : Context → Context) :
    (s.updContext fn asid f).blocks = s.blocks := rfl
@[simp] theorem State.updContext_launches (s : State) (fn asid : Nat) (f : Context → Context) :
    (s.updContext fn asid f).launches = s.launches := rfl
@[simp] theorem State.updContext_cores (s : State) (fn asid : Nat) (f : Context → Context) :
    (s.updContext fn asid f).cores = s.cores := rfl
@[simp] theorem State.updContext_clusters (s : State) (fn asid : Nat) (f : Context → Context) :
    (s.updContext fn asid f).clusters = s.clusters := rfl
@[simp] theorem State.updContext_lines (s : State) (fn asid : Nat) (f : Context → Context) :
    (s.updContext fn asid f).lines = s.lines := rfl
@[simp] theorem State.updContext_egress (s : State) (fn asid : Nat) (f : Context → Context) :
    (s.updContext fn asid f).egress = s.egress := rfl
@[simp] theorem State.updContext_faults (s : State) (fn asid : Nat) (f : Context → Context) :
    (s.updContext fn asid f).faults = s.faults := rfl
@[simp] theorem State.updContext_nextFault (s : State) (fn asid : Nat) (f : Context → Context) :
    (s.updContext fn asid f).nextFault = s.nextFault := rfl
@[simp] theorem State.updContext_refused (s : State) (fn asid : Nat) (f : Context → Context) :
    (s.updContext fn asid f).refused = s.refused := rfl
@[simp] theorem State.updContext_engines (s : State) (fn asid : Nat) (f : Context → Context) :
    (s.updContext fn asid f).engines = s.engines := rfl
@[simp] theorem State.updContext_functions (s : State) (fn asid : Nat) (f : Context → Context) :
    (s.updContext fn asid f).functions = s.functions := rfl
@[simp] theorem State.updContext_queues (s : State) (fn asid : Nat) (f : Context → Context) :
    (s.updContext fn asid f).queues = s.queues := rfl
@[simp] theorem State.updContext_peers (s : State) (fn asid : Nat) (f : Context → Context) :
    (s.updContext fn asid f).peers = s.peers := rfl
@[simp] theorem State.updContext_sched (s : State) (fn asid : Nat) (f : Context → Context) :
    (s.updContext fn asid f).sched = s.sched := rfl
@[simp] theorem State.updContext_mregs (s : State) (fn asid : Nat) (f : Context → Context) :
    (s.updContext fn asid f).mregs = s.mregs := rfl
@[simp] theorem State.updContext_maint (s : State) (fn asid : Nat) (f : Context → Context) :
    (s.updContext fn asid f).maint = s.maint := rfl
@[simp] theorem State.updContext_trust (s : State) (fn asid : Nat) (f : Context → Context) :
    (s.updContext fn asid f).trust = s.trust := rfl
@[simp] theorem State.updContext_ports (s : State) (fn asid : Nat) (f : Context → Context) :
    (s.updContext fn asid f).ports = s.ports := rfl
@[simp] theorem State.updContext_outbox (s : State) (fn asid : Nat) (f : Context → Context) :
    (s.updContext fn asid f).outbox = s.outbox := rfl
@[simp] theorem State.updContext_records (s : State) (fn asid : Nat) (f : Context → Context) :
    (s.updContext fn asid f).records = s.records := rfl

/-! updFunction changes functions alone. -/

@[simp] theorem State.updFunction_agenda (s : State) (fn : Nat) (f : Function → Function) :
    (s.updFunction fn f).agenda = s.agenda := rfl
@[simp] theorem State.updFunction_issuer (s : State) (fn : Nat) (f : Function → Function) :
    (s.updFunction fn f).issuer = s.issuer := rfl
@[simp] theorem State.updFunction_cycle (s : State) (fn : Nat) (f : Function → Function) :
    (s.updFunction fn f).cycle = s.cycle := rfl
@[simp] theorem State.updFunction_time (s : State) (fn : Nat) (f : Function → Function) :
    (s.updFunction fn f).time = s.time := rfl
@[simp] theorem State.updFunction_clock (s : State) (fn : Nat) (f : Function → Function) :
    (s.updFunction fn f).clock = s.clock := rfl
@[simp] theorem State.updFunction_memories (s : State) (fn : Nat) (f : Function → Function) :
    (s.updFunction fn f).memories = s.memories := rfl
@[simp] theorem State.updFunction_waves (s : State) (fn : Nat) (f : Function → Function) :
    (s.updFunction fn f).waves = s.waves := rfl
@[simp] theorem State.updFunction_blocks (s : State) (fn : Nat) (f : Function → Function) :
    (s.updFunction fn f).blocks = s.blocks := rfl
@[simp] theorem State.updFunction_launches (s : State) (fn : Nat) (f : Function → Function) :
    (s.updFunction fn f).launches = s.launches := rfl
@[simp] theorem State.updFunction_cores (s : State) (fn : Nat) (f : Function → Function) :
    (s.updFunction fn f).cores = s.cores := rfl
@[simp] theorem State.updFunction_clusters (s : State) (fn : Nat) (f : Function → Function) :
    (s.updFunction fn f).clusters = s.clusters := rfl
@[simp] theorem State.updFunction_lines (s : State) (fn : Nat) (f : Function → Function) :
    (s.updFunction fn f).lines = s.lines := rfl
@[simp] theorem State.updFunction_egress (s : State) (fn : Nat) (f : Function → Function) :
    (s.updFunction fn f).egress = s.egress := rfl
@[simp] theorem State.updFunction_faults (s : State) (fn : Nat) (f : Function → Function) :
    (s.updFunction fn f).faults = s.faults := rfl
@[simp] theorem State.updFunction_nextFault (s : State) (fn : Nat) (f : Function → Function) :
    (s.updFunction fn f).nextFault = s.nextFault := rfl
@[simp] theorem State.updFunction_refused (s : State) (fn : Nat) (f : Function → Function) :
    (s.updFunction fn f).refused = s.refused := rfl
@[simp] theorem State.updFunction_engines (s : State) (fn : Nat) (f : Function → Function) :
    (s.updFunction fn f).engines = s.engines := rfl
@[simp] theorem State.updFunction_contexts (s : State) (fn : Nat) (f : Function → Function) :
    (s.updFunction fn f).contexts = s.contexts := rfl
@[simp] theorem State.updFunction_queues (s : State) (fn : Nat) (f : Function → Function) :
    (s.updFunction fn f).queues = s.queues := rfl
@[simp] theorem State.updFunction_peers (s : State) (fn : Nat) (f : Function → Function) :
    (s.updFunction fn f).peers = s.peers := rfl
@[simp] theorem State.updFunction_sched (s : State) (fn : Nat) (f : Function → Function) :
    (s.updFunction fn f).sched = s.sched := rfl
@[simp] theorem State.updFunction_mregs (s : State) (fn : Nat) (f : Function → Function) :
    (s.updFunction fn f).mregs = s.mregs := rfl
@[simp] theorem State.updFunction_maint (s : State) (fn : Nat) (f : Function → Function) :
    (s.updFunction fn f).maint = s.maint := rfl
@[simp] theorem State.updFunction_trust (s : State) (fn : Nat) (f : Function → Function) :
    (s.updFunction fn f).trust = s.trust := rfl
@[simp] theorem State.updFunction_ports (s : State) (fn : Nat) (f : Function → Function) :
    (s.updFunction fn f).ports = s.ports := rfl
@[simp] theorem State.updFunction_outbox (s : State) (fn : Nat) (f : Function → Function) :
    (s.updFunction fn f).outbox = s.outbox := rfl
@[simp] theorem State.updFunction_records (s : State) (fn : Nat) (f : Function → Function) :
    (s.updFunction fn f).records = s.records := rfl

/-! updQueue changes queues alone. -/

@[simp] theorem State.updQueue_agenda (s : State) (q : Nat) (f : Queue → Queue) :
    (s.updQueue q f).agenda = s.agenda := rfl
@[simp] theorem State.updQueue_issuer (s : State) (q : Nat) (f : Queue → Queue) :
    (s.updQueue q f).issuer = s.issuer := rfl
@[simp] theorem State.updQueue_cycle (s : State) (q : Nat) (f : Queue → Queue) :
    (s.updQueue q f).cycle = s.cycle := rfl
@[simp] theorem State.updQueue_time (s : State) (q : Nat) (f : Queue → Queue) :
    (s.updQueue q f).time = s.time := rfl
@[simp] theorem State.updQueue_clock (s : State) (q : Nat) (f : Queue → Queue) :
    (s.updQueue q f).clock = s.clock := rfl
@[simp] theorem State.updQueue_memories (s : State) (q : Nat) (f : Queue → Queue) :
    (s.updQueue q f).memories = s.memories := rfl
@[simp] theorem State.updQueue_waves (s : State) (q : Nat) (f : Queue → Queue) :
    (s.updQueue q f).waves = s.waves := rfl
@[simp] theorem State.updQueue_blocks (s : State) (q : Nat) (f : Queue → Queue) :
    (s.updQueue q f).blocks = s.blocks := rfl
@[simp] theorem State.updQueue_launches (s : State) (q : Nat) (f : Queue → Queue) :
    (s.updQueue q f).launches = s.launches := rfl
@[simp] theorem State.updQueue_cores (s : State) (q : Nat) (f : Queue → Queue) :
    (s.updQueue q f).cores = s.cores := rfl
@[simp] theorem State.updQueue_clusters (s : State) (q : Nat) (f : Queue → Queue) :
    (s.updQueue q f).clusters = s.clusters := rfl
@[simp] theorem State.updQueue_lines (s : State) (q : Nat) (f : Queue → Queue) :
    (s.updQueue q f).lines = s.lines := rfl
@[simp] theorem State.updQueue_egress (s : State) (q : Nat) (f : Queue → Queue) :
    (s.updQueue q f).egress = s.egress := rfl
@[simp] theorem State.updQueue_faults (s : State) (q : Nat) (f : Queue → Queue) :
    (s.updQueue q f).faults = s.faults := rfl
@[simp] theorem State.updQueue_nextFault (s : State) (q : Nat) (f : Queue → Queue) :
    (s.updQueue q f).nextFault = s.nextFault := rfl
@[simp] theorem State.updQueue_refused (s : State) (q : Nat) (f : Queue → Queue) :
    (s.updQueue q f).refused = s.refused := rfl
@[simp] theorem State.updQueue_engines (s : State) (q : Nat) (f : Queue → Queue) :
    (s.updQueue q f).engines = s.engines := rfl
@[simp] theorem State.updQueue_contexts (s : State) (q : Nat) (f : Queue → Queue) :
    (s.updQueue q f).contexts = s.contexts := rfl
@[simp] theorem State.updQueue_functions (s : State) (q : Nat) (f : Queue → Queue) :
    (s.updQueue q f).functions = s.functions := rfl
@[simp] theorem State.updQueue_peers (s : State) (q : Nat) (f : Queue → Queue) :
    (s.updQueue q f).peers = s.peers := rfl
@[simp] theorem State.updQueue_sched (s : State) (q : Nat) (f : Queue → Queue) :
    (s.updQueue q f).sched = s.sched := rfl
@[simp] theorem State.updQueue_mregs (s : State) (q : Nat) (f : Queue → Queue) :
    (s.updQueue q f).mregs = s.mregs := rfl
@[simp] theorem State.updQueue_maint (s : State) (q : Nat) (f : Queue → Queue) :
    (s.updQueue q f).maint = s.maint := rfl
@[simp] theorem State.updQueue_trust (s : State) (q : Nat) (f : Queue → Queue) :
    (s.updQueue q f).trust = s.trust := rfl
@[simp] theorem State.updQueue_ports (s : State) (q : Nat) (f : Queue → Queue) :
    (s.updQueue q f).ports = s.ports := rfl
@[simp] theorem State.updQueue_outbox (s : State) (q : Nat) (f : Queue → Queue) :
    (s.updQueue q f).outbox = s.outbox := rfl
@[simp] theorem State.updQueue_records (s : State) (q : Nat) (f : Queue → Queue) :
    (s.updQueue q f).records = s.records := rfl

/-! updXctx changes engines alone. -/

@[simp] theorem State.updXctx_agenda (s : State) (e k : Nat) (f : XCtx → XCtx) :
    (s.updXctx e k f).agenda = s.agenda := rfl
@[simp] theorem State.updXctx_issuer (s : State) (e k : Nat) (f : XCtx → XCtx) :
    (s.updXctx e k f).issuer = s.issuer := rfl
@[simp] theorem State.updXctx_cycle (s : State) (e k : Nat) (f : XCtx → XCtx) :
    (s.updXctx e k f).cycle = s.cycle := rfl
@[simp] theorem State.updXctx_time (s : State) (e k : Nat) (f : XCtx → XCtx) :
    (s.updXctx e k f).time = s.time := rfl
@[simp] theorem State.updXctx_clock (s : State) (e k : Nat) (f : XCtx → XCtx) :
    (s.updXctx e k f).clock = s.clock := rfl
@[simp] theorem State.updXctx_memories (s : State) (e k : Nat) (f : XCtx → XCtx) :
    (s.updXctx e k f).memories = s.memories := rfl
@[simp] theorem State.updXctx_waves (s : State) (e k : Nat) (f : XCtx → XCtx) :
    (s.updXctx e k f).waves = s.waves := rfl
@[simp] theorem State.updXctx_blocks (s : State) (e k : Nat) (f : XCtx → XCtx) :
    (s.updXctx e k f).blocks = s.blocks := rfl
@[simp] theorem State.updXctx_launches (s : State) (e k : Nat) (f : XCtx → XCtx) :
    (s.updXctx e k f).launches = s.launches := rfl
@[simp] theorem State.updXctx_cores (s : State) (e k : Nat) (f : XCtx → XCtx) :
    (s.updXctx e k f).cores = s.cores := rfl
@[simp] theorem State.updXctx_clusters (s : State) (e k : Nat) (f : XCtx → XCtx) :
    (s.updXctx e k f).clusters = s.clusters := rfl
@[simp] theorem State.updXctx_lines (s : State) (e k : Nat) (f : XCtx → XCtx) :
    (s.updXctx e k f).lines = s.lines := rfl
@[simp] theorem State.updXctx_egress (s : State) (e k : Nat) (f : XCtx → XCtx) :
    (s.updXctx e k f).egress = s.egress := rfl
@[simp] theorem State.updXctx_faults (s : State) (e k : Nat) (f : XCtx → XCtx) :
    (s.updXctx e k f).faults = s.faults := rfl
@[simp] theorem State.updXctx_nextFault (s : State) (e k : Nat) (f : XCtx → XCtx) :
    (s.updXctx e k f).nextFault = s.nextFault := rfl
@[simp] theorem State.updXctx_refused (s : State) (e k : Nat) (f : XCtx → XCtx) :
    (s.updXctx e k f).refused = s.refused := rfl
@[simp] theorem State.updXctx_contexts (s : State) (e k : Nat) (f : XCtx → XCtx) :
    (s.updXctx e k f).contexts = s.contexts := rfl
@[simp] theorem State.updXctx_functions (s : State) (e k : Nat) (f : XCtx → XCtx) :
    (s.updXctx e k f).functions = s.functions := rfl
@[simp] theorem State.updXctx_queues (s : State) (e k : Nat) (f : XCtx → XCtx) :
    (s.updXctx e k f).queues = s.queues := rfl
@[simp] theorem State.updXctx_peers (s : State) (e k : Nat) (f : XCtx → XCtx) :
    (s.updXctx e k f).peers = s.peers := rfl
@[simp] theorem State.updXctx_sched (s : State) (e k : Nat) (f : XCtx → XCtx) :
    (s.updXctx e k f).sched = s.sched := rfl
@[simp] theorem State.updXctx_mregs (s : State) (e k : Nat) (f : XCtx → XCtx) :
    (s.updXctx e k f).mregs = s.mregs := rfl
@[simp] theorem State.updXctx_maint (s : State) (e k : Nat) (f : XCtx → XCtx) :
    (s.updXctx e k f).maint = s.maint := rfl
@[simp] theorem State.updXctx_trust (s : State) (e k : Nat) (f : XCtx → XCtx) :
    (s.updXctx e k f).trust = s.trust := rfl
@[simp] theorem State.updXctx_ports (s : State) (e k : Nat) (f : XCtx → XCtx) :
    (s.updXctx e k f).ports = s.ports := rfl
@[simp] theorem State.updXctx_outbox (s : State) (e k : Nat) (f : XCtx → XCtx) :
    (s.updXctx e k f).outbox = s.outbox := rfl
@[simp] theorem State.updXctx_records (s : State) (e k : Nat) (f : XCtx → XCtx) :
    (s.updXctx e k f).records = s.records := rfl

/-! devWrite changes memories alone. -/

@[simp] theorem State.devWrite_agenda (s : State) (a : Nat) (bs : List Byte) :
    (s.devWrite a bs).agenda = s.agenda := rfl
@[simp] theorem State.devWrite_issuer (s : State) (a : Nat) (bs : List Byte) :
    (s.devWrite a bs).issuer = s.issuer := rfl
@[simp] theorem State.devWrite_cycle (s : State) (a : Nat) (bs : List Byte) :
    (s.devWrite a bs).cycle = s.cycle := rfl
@[simp] theorem State.devWrite_time (s : State) (a : Nat) (bs : List Byte) :
    (s.devWrite a bs).time = s.time := rfl
@[simp] theorem State.devWrite_clock (s : State) (a : Nat) (bs : List Byte) :
    (s.devWrite a bs).clock = s.clock := rfl
@[simp] theorem State.devWrite_waves (s : State) (a : Nat) (bs : List Byte) :
    (s.devWrite a bs).waves = s.waves := rfl
@[simp] theorem State.devWrite_blocks (s : State) (a : Nat) (bs : List Byte) :
    (s.devWrite a bs).blocks = s.blocks := rfl
@[simp] theorem State.devWrite_launches (s : State) (a : Nat) (bs : List Byte) :
    (s.devWrite a bs).launches = s.launches := rfl
@[simp] theorem State.devWrite_cores (s : State) (a : Nat) (bs : List Byte) :
    (s.devWrite a bs).cores = s.cores := rfl
@[simp] theorem State.devWrite_clusters (s : State) (a : Nat) (bs : List Byte) :
    (s.devWrite a bs).clusters = s.clusters := rfl
@[simp] theorem State.devWrite_lines (s : State) (a : Nat) (bs : List Byte) :
    (s.devWrite a bs).lines = s.lines := rfl
@[simp] theorem State.devWrite_egress (s : State) (a : Nat) (bs : List Byte) :
    (s.devWrite a bs).egress = s.egress := rfl
@[simp] theorem State.devWrite_faults (s : State) (a : Nat) (bs : List Byte) :
    (s.devWrite a bs).faults = s.faults := rfl
@[simp] theorem State.devWrite_nextFault (s : State) (a : Nat) (bs : List Byte) :
    (s.devWrite a bs).nextFault = s.nextFault := rfl
@[simp] theorem State.devWrite_refused (s : State) (a : Nat) (bs : List Byte) :
    (s.devWrite a bs).refused = s.refused := rfl
@[simp] theorem State.devWrite_engines (s : State) (a : Nat) (bs : List Byte) :
    (s.devWrite a bs).engines = s.engines := rfl
@[simp] theorem State.devWrite_contexts (s : State) (a : Nat) (bs : List Byte) :
    (s.devWrite a bs).contexts = s.contexts := rfl
@[simp] theorem State.devWrite_functions (s : State) (a : Nat) (bs : List Byte) :
    (s.devWrite a bs).functions = s.functions := rfl
@[simp] theorem State.devWrite_queues (s : State) (a : Nat) (bs : List Byte) :
    (s.devWrite a bs).queues = s.queues := rfl
@[simp] theorem State.devWrite_peers (s : State) (a : Nat) (bs : List Byte) :
    (s.devWrite a bs).peers = s.peers := rfl
@[simp] theorem State.devWrite_sched (s : State) (a : Nat) (bs : List Byte) :
    (s.devWrite a bs).sched = s.sched := rfl
@[simp] theorem State.devWrite_mregs (s : State) (a : Nat) (bs : List Byte) :
    (s.devWrite a bs).mregs = s.mregs := rfl
@[simp] theorem State.devWrite_maint (s : State) (a : Nat) (bs : List Byte) :
    (s.devWrite a bs).maint = s.maint := rfl
@[simp] theorem State.devWrite_trust (s : State) (a : Nat) (bs : List Byte) :
    (s.devWrite a bs).trust = s.trust := rfl
@[simp] theorem State.devWrite_ports (s : State) (a : Nat) (bs : List Byte) :
    (s.devWrite a bs).ports = s.ports := rfl
@[simp] theorem State.devWrite_outbox (s : State) (a : Nat) (bs : List Byte) :
    (s.devWrite a bs).outbox = s.outbox := rfl
@[simp] theorem State.devWrite_records (s : State) (a : Nat) (bs : List Byte) :
    (s.devWrite a bs).records = s.records := rfl

/-! hostWrite changes memories alone. -/

@[simp] theorem State.hostWrite_agenda (s : State) (a : Nat) (bs : List Byte) :
    (s.hostWrite a bs).agenda = s.agenda := rfl
@[simp] theorem State.hostWrite_issuer (s : State) (a : Nat) (bs : List Byte) :
    (s.hostWrite a bs).issuer = s.issuer := rfl
@[simp] theorem State.hostWrite_cycle (s : State) (a : Nat) (bs : List Byte) :
    (s.hostWrite a bs).cycle = s.cycle := rfl
@[simp] theorem State.hostWrite_time (s : State) (a : Nat) (bs : List Byte) :
    (s.hostWrite a bs).time = s.time := rfl
@[simp] theorem State.hostWrite_clock (s : State) (a : Nat) (bs : List Byte) :
    (s.hostWrite a bs).clock = s.clock := rfl
@[simp] theorem State.hostWrite_waves (s : State) (a : Nat) (bs : List Byte) :
    (s.hostWrite a bs).waves = s.waves := rfl
@[simp] theorem State.hostWrite_blocks (s : State) (a : Nat) (bs : List Byte) :
    (s.hostWrite a bs).blocks = s.blocks := rfl
@[simp] theorem State.hostWrite_launches (s : State) (a : Nat) (bs : List Byte) :
    (s.hostWrite a bs).launches = s.launches := rfl
@[simp] theorem State.hostWrite_cores (s : State) (a : Nat) (bs : List Byte) :
    (s.hostWrite a bs).cores = s.cores := rfl
@[simp] theorem State.hostWrite_clusters (s : State) (a : Nat) (bs : List Byte) :
    (s.hostWrite a bs).clusters = s.clusters := rfl
@[simp] theorem State.hostWrite_lines (s : State) (a : Nat) (bs : List Byte) :
    (s.hostWrite a bs).lines = s.lines := rfl
@[simp] theorem State.hostWrite_egress (s : State) (a : Nat) (bs : List Byte) :
    (s.hostWrite a bs).egress = s.egress := rfl
@[simp] theorem State.hostWrite_faults (s : State) (a : Nat) (bs : List Byte) :
    (s.hostWrite a bs).faults = s.faults := rfl
@[simp] theorem State.hostWrite_nextFault (s : State) (a : Nat) (bs : List Byte) :
    (s.hostWrite a bs).nextFault = s.nextFault := rfl
@[simp] theorem State.hostWrite_refused (s : State) (a : Nat) (bs : List Byte) :
    (s.hostWrite a bs).refused = s.refused := rfl
@[simp] theorem State.hostWrite_engines (s : State) (a : Nat) (bs : List Byte) :
    (s.hostWrite a bs).engines = s.engines := rfl
@[simp] theorem State.hostWrite_contexts (s : State) (a : Nat) (bs : List Byte) :
    (s.hostWrite a bs).contexts = s.contexts := rfl
@[simp] theorem State.hostWrite_functions (s : State) (a : Nat) (bs : List Byte) :
    (s.hostWrite a bs).functions = s.functions := rfl
@[simp] theorem State.hostWrite_queues (s : State) (a : Nat) (bs : List Byte) :
    (s.hostWrite a bs).queues = s.queues := rfl
@[simp] theorem State.hostWrite_peers (s : State) (a : Nat) (bs : List Byte) :
    (s.hostWrite a bs).peers = s.peers := rfl
@[simp] theorem State.hostWrite_sched (s : State) (a : Nat) (bs : List Byte) :
    (s.hostWrite a bs).sched = s.sched := rfl
@[simp] theorem State.hostWrite_mregs (s : State) (a : Nat) (bs : List Byte) :
    (s.hostWrite a bs).mregs = s.mregs := rfl
@[simp] theorem State.hostWrite_maint (s : State) (a : Nat) (bs : List Byte) :
    (s.hostWrite a bs).maint = s.maint := rfl
@[simp] theorem State.hostWrite_trust (s : State) (a : Nat) (bs : List Byte) :
    (s.hostWrite a bs).trust = s.trust := rfl
@[simp] theorem State.hostWrite_ports (s : State) (a : Nat) (bs : List Byte) :
    (s.hostWrite a bs).ports = s.ports := rfl
@[simp] theorem State.hostWrite_outbox (s : State) (a : Nat) (bs : List Byte) :
    (s.hostWrite a bs).outbox = s.outbox := rfl
@[simp] theorem State.hostWrite_records (s : State) (a : Nat) (bs : List Byte) :
    (s.hostWrite a bs).records = s.records := rfl

/-! input changes cores alone. -/

@[simp] theorem State.input_agenda (s : State) (w : Nat) (i : Input) :
    (s.input w i).agenda = s.agenda := rfl
@[simp] theorem State.input_issuer (s : State) (w : Nat) (i : Input) :
    (s.input w i).issuer = s.issuer := rfl
@[simp] theorem State.input_cycle (s : State) (w : Nat) (i : Input) :
    (s.input w i).cycle = s.cycle := rfl
@[simp] theorem State.input_time (s : State) (w : Nat) (i : Input) :
    (s.input w i).time = s.time := rfl
@[simp] theorem State.input_clock (s : State) (w : Nat) (i : Input) :
    (s.input w i).clock = s.clock := rfl
@[simp] theorem State.input_memories (s : State) (w : Nat) (i : Input) :
    (s.input w i).memories = s.memories := rfl
@[simp] theorem State.input_waves (s : State) (w : Nat) (i : Input) :
    (s.input w i).waves = s.waves := rfl
@[simp] theorem State.input_blocks (s : State) (w : Nat) (i : Input) :
    (s.input w i).blocks = s.blocks := rfl
@[simp] theorem State.input_launches (s : State) (w : Nat) (i : Input) :
    (s.input w i).launches = s.launches := rfl
@[simp] theorem State.input_clusters (s : State) (w : Nat) (i : Input) :
    (s.input w i).clusters = s.clusters := rfl
@[simp] theorem State.input_lines (s : State) (w : Nat) (i : Input) :
    (s.input w i).lines = s.lines := rfl
@[simp] theorem State.input_egress (s : State) (w : Nat) (i : Input) :
    (s.input w i).egress = s.egress := rfl
@[simp] theorem State.input_faults (s : State) (w : Nat) (i : Input) :
    (s.input w i).faults = s.faults := rfl
@[simp] theorem State.input_nextFault (s : State) (w : Nat) (i : Input) :
    (s.input w i).nextFault = s.nextFault := rfl
@[simp] theorem State.input_refused (s : State) (w : Nat) (i : Input) :
    (s.input w i).refused = s.refused := rfl
@[simp] theorem State.input_engines (s : State) (w : Nat) (i : Input) :
    (s.input w i).engines = s.engines := rfl
@[simp] theorem State.input_contexts (s : State) (w : Nat) (i : Input) :
    (s.input w i).contexts = s.contexts := rfl
@[simp] theorem State.input_functions (s : State) (w : Nat) (i : Input) :
    (s.input w i).functions = s.functions := rfl
@[simp] theorem State.input_queues (s : State) (w : Nat) (i : Input) :
    (s.input w i).queues = s.queues := rfl
@[simp] theorem State.input_peers (s : State) (w : Nat) (i : Input) :
    (s.input w i).peers = s.peers := rfl
@[simp] theorem State.input_sched (s : State) (w : Nat) (i : Input) :
    (s.input w i).sched = s.sched := rfl
@[simp] theorem State.input_mregs (s : State) (w : Nat) (i : Input) :
    (s.input w i).mregs = s.mregs := rfl
@[simp] theorem State.input_maint (s : State) (w : Nat) (i : Input) :
    (s.input w i).maint = s.maint := rfl
@[simp] theorem State.input_trust (s : State) (w : Nat) (i : Input) :
    (s.input w i).trust = s.trust := rfl
@[simp] theorem State.input_ports (s : State) (w : Nat) (i : Input) :
    (s.input w i).ports = s.ports := rfl
@[simp] theorem State.input_outbox (s : State) (w : Nat) (i : Input) :
    (s.input w i).outbox = s.outbox := rfl
@[simp] theorem State.input_records (s : State) (w : Nat) (i : Input) :
    (s.input w i).records = s.records := rfl

/-! elapse changes the cycle, the time and the contexts. -/

@[simp] theorem State.elapse_agenda (s : State) (n : Nat) : (s.elapse n).agenda = s.agenda := rfl
@[simp] theorem State.elapse_issuer (s : State) (n : Nat) : (s.elapse n).issuer = s.issuer := rfl
@[simp] theorem State.elapse_clock (s : State) (n : Nat) : (s.elapse n).clock = s.clock := rfl
@[simp] theorem State.elapse_memories (s : State) (n : Nat) : (s.elapse n).memories = s.memories := rfl
@[simp] theorem State.elapse_waves (s : State) (n : Nat) : (s.elapse n).waves = s.waves := rfl
@[simp] theorem State.elapse_blocks (s : State) (n : Nat) : (s.elapse n).blocks = s.blocks := rfl
@[simp] theorem State.elapse_launches (s : State) (n : Nat) : (s.elapse n).launches = s.launches := rfl
@[simp] theorem State.elapse_cores (s : State) (n : Nat) : (s.elapse n).cores = s.cores := rfl
@[simp] theorem State.elapse_clusters (s : State) (n : Nat) : (s.elapse n).clusters = s.clusters := rfl
@[simp] theorem State.elapse_lines (s : State) (n : Nat) : (s.elapse n).lines = s.lines := rfl
@[simp] theorem State.elapse_faults (s : State) (n : Nat) : (s.elapse n).faults = s.faults := rfl
@[simp] theorem State.elapse_nextFault (s : State) (n : Nat) : (s.elapse n).nextFault = s.nextFault := rfl
@[simp] theorem State.elapse_refused (s : State) (n : Nat) : (s.elapse n).refused = s.refused := rfl
@[simp] theorem State.elapse_engines (s : State) (n : Nat) : (s.elapse n).engines = s.engines := rfl
@[simp] theorem State.elapse_functions (s : State) (n : Nat) : (s.elapse n).functions = s.functions := rfl
@[simp] theorem State.elapse_queues (s : State) (n : Nat) : (s.elapse n).queues = s.queues := rfl
@[simp] theorem State.elapse_peers (s : State) (n : Nat) : (s.elapse n).peers = s.peers := rfl
@[simp] theorem State.elapse_sched (s : State) (n : Nat) : (s.elapse n).sched = s.sched := rfl
@[simp] theorem State.elapse_mregs (s : State) (n : Nat) : (s.elapse n).mregs = s.mregs := rfl
@[simp] theorem State.elapse_maint (s : State) (n : Nat) : (s.elapse n).maint = s.maint := rfl
@[simp] theorem State.elapse_trust (s : State) (n : Nat) : (s.elapse n).trust = s.trust := rfl
@[simp] theorem State.elapse_ports (s : State) (n : Nat) : (s.elapse n).ports = s.ports := rfl
@[simp] theorem State.elapse_outbox (s : State) (n : Nat) : (s.elapse n).outbox = s.outbox := rfl

/-! Reading back. -/

/-- The wave that an update changes. -/
theorem State.wave_updWave (s : State) (w : Nat) (f : Wave → Wave) (h : w < s.waves.length) :
    (s.updWave w f).wave w = f (s.wave w) := by
  simp [State.wave, State.updWave, List.getD, h]

/-- An update of one wave leaves the others. -/
theorem State.wave_updWave_ne (s : State) (w v : Nat) (f : Wave → Wave) (h : v ≠ w) :
    (s.updWave w f).wave v = s.wave v := by
  simp [State.wave, State.updWave, List.getD, h.symm]

/-- The block that an update changes. -/
theorem State.block_updBlock (s : State) (b : Nat) (f : Block → Block) (h : b < s.blocks.length) :
    (s.updBlock b f).block b = f (s.block b) := by
  simp [State.block, State.updBlock, List.getD, h]

/-- An update of one block leaves the others. -/
theorem State.block_updBlock_ne (s : State) (b v : Nat) (f : Block → Block) (h : v ≠ b) :
    (s.updBlock b f).block v = s.block v := by
  simp [State.block, State.updBlock, List.getD, h.symm]

/-- The launch that an update changes. -/
theorem State.launch_updLaunch (s : State) (l : Nat) (f : Launch → Launch) (h : l < s.launches.length) :
    (s.updLaunch l f).launch l = f (s.launch l) := by
  simp [State.launch, State.updLaunch, List.getD, h]

/-- A stream put back is read back. -/
@[simp] theorem Wave.stream_setStream (w : Wave) (sl : Slice) (st : Stream) : (w.setStream sl st).stream sl = st := by
  cases sl <;> rfl

/-- Putting a stream back leaves the other one. -/
theorem Wave.stream_setStream_ne (w : Wave) (x y : Slice) (st : Stream) (h : x ≠ y) :
    (w.setStream x st).stream y = w.stream y := by
  cases x <;> cases y <;> first | rfl | exact absurd rfl h

/-- A fragment put into the split table is read back. -/
theorem Stream.frag_setFrag (st : Stream) (e : Nat) (f : Option Frag) (h : e < st.frags.length) :
    (st.setFrag e f).frag e = f := by
  simp [Stream.frag, Stream.setFrag, List.getD, h]

end Sys2Proof.Machine
end

