-- ==== Sys2Proof/Laws/Memory.lean ====
section
/-!
SUPPORT. The laws of byte memories: a read after a write, and the canonical form that every operation keeps.
-/

namespace Sys2Proof.Machine

/-! Reads and writes. -/

/-- A memory whose addresses all lie above `a` has nothing at `a`. -/
theorem Mem.read_of_above {m : Mem} {a : Nat} (h : m.above a = true) : m.read a = unlisted := by
  induction m with
  | nil => rfl
  | cons c t ih =>
    obtain ⟨k, v⟩ := c
    simp only [Mem.above, List.all_cons, Bool.and_eq_true, decide_eq_true_eq] at h
    simp only [Mem.read, if_neg (show k ≠ a by omega)]
    exact ih (by simpa [Mem.above] using h.2)

/-- Lowering the bound keeps a memory above it. -/
theorem Mem.above_mono {m : Mem} {a b : Nat} (h : m.above a = true) (hb : b ≤ a) : m.above b = true := by
  simp only [Mem.above, List.all_eq_true, decide_eq_true_eq] at *
  exact fun c hc => Nat.lt_of_le_of_lt hb (h c hc)

/-- What is written is read back. -/
theorem Mem.read_write_same {m : Mem} (hm : m.wf = true) (a : Nat) (b : Byte) : (m.write a b).read a = b := by
  induction m with
  | nil => by_cases h : b = unlisted <;> simp [Mem.write, Mem.read, h]
  | cons c t ih =>
    obtain ⟨k, v⟩ := c
    simp only [Mem.wf, Bool.and_eq_true] at hm
    simp only [Mem.write]
    split
    · simp only [Mem.read, if_neg (show k ≠ a by omega)]; exact ih hm.2
    · split
      · subst_vars
        by_cases h : b = unlisted
        · simp [h, Mem.read_of_above hm.1.2]
        · simp [h, Mem.read]
      · by_cases h : b = unlisted
        · simp only [h, if_true, Mem.read, if_neg (show k ≠ a by omega)]
          exact Mem.read_of_above (Mem.above_mono hm.1.2 (by omega))
        · simp [h, Mem.read]

/-- A write leaves every other address. -/
theorem Mem.read_write_ne {m : Mem} (hm : m.wf = true) {a c : Nat} (b : Byte) (h : c ≠ a) :
    (m.write a b).read c = m.read c := by
  induction m with
  | nil => by_cases hb : b = unlisted <;> simp [Mem.write, Mem.read, hb, h.symm]
  | cons x t ih =>
    obtain ⟨k, v⟩ := x
    simp only [Mem.wf, Bool.and_eq_true] at hm
    simp only [Mem.write]
    split
    · simp only [Mem.read]; rw [ih hm.2]
    · split
      · subst_vars
        by_cases hb : b = unlisted <;> simp [hb, Mem.read, h.symm]
      · by_cases hb : b = unlisted <;> simp [hb, Mem.read, h.symm]

/-! The canonical form. -/

theorem Mem.above_write {m : Mem} {a k : Nat} {b : Byte} (h : m.above k = true) (ha : k < a) :
    (m.write a b).above k = true := by
  induction m with
  | nil => by_cases hb : b = unlisted <;> simp [Mem.write, Mem.above, hb, ha]
  | cons c t ih =>
    obtain ⟨j, v⟩ := c
    have h' : k < j ∧ Mem.above t k = true := by simpa [Mem.above] using h
    simp only [Mem.write]
    split
    · have := ih h'.2
      simp only [Mem.above, List.all_cons, Bool.and_eq_true, decide_eq_true_eq] at *
      exact ⟨h'.1, this⟩
    · split
      · by_cases hb : b = unlisted
        · simpa [hb] using h'.2
        · have := h'.2
          simp only [Mem.above] at this
          simp [hb, Mem.above, ha, this]
      · by_cases hb : b = unlisted
        · simpa [hb] using h
        · have := h'.2
          simp only [Mem.above] at this
          simp [hb, Mem.above, ha, h'.1, this]

/-- A write keeps the canonical form. -/
theorem Mem.wf_write {m : Mem} (hm : m.wf = true) (a : Nat) (b : Byte) : (m.write a b).wf = true := by
  induction m with
  | nil => by_cases h : b = unlisted <;> simp [Mem.write, Mem.wf, Mem.above, h]
  | cons c t ih =>
    obtain ⟨k, v⟩ := c
    have h' := hm
    simp only [Mem.wf, Bool.and_eq_true, bne_iff_ne, ne_eq] at hm
    simp only [Mem.write]
    split
    · simp [Mem.wf, hm.1.1, Mem.above_write hm.1.2 (by omega), ih hm.2]
    · split
      · subst_vars
        by_cases hb : b = unlisted
        · simp [hb, hm.2]
        · simp [hb, Mem.wf, hm.1.2, hm.2]
      · by_cases hb : b = unlisted
        · simpa [hb] using h'
        · have hk : Mem.above ((k, v) :: t) a = true := by
            have := Mem.above_mono (b := a) hm.1.2 (by omega)
            simp only [Mem.above, List.all_cons, Bool.and_eq_true, decide_eq_true_eq] at *
            exact ⟨by omega, this⟩
          rw [if_neg hb, Mem.wf, hk, h']
          simp [hb]

/-- Consecutive writes keep the canonical form. -/
theorem Mem.wf_writes {m : Mem} (hm : m.wf = true) (a : Nat) (bs : List Byte) : (m.writes a bs).wf = true := by
  induction bs generalizing m a with
  | nil => exact hm
  | cons b t ih => exact ih (Mem.wf_write hm a b) (a + 1)

/-- Consecutive writes leave every address outside them. -/
theorem Mem.read_writes_outside {m : Mem} (hm : m.wf = true) {a c : Nat} (bs : List Byte)
    (h : c < a ∨ a + bs.length ≤ c) : (m.writes a bs).read c = m.read c := by
  induction bs generalizing m a with
  | nil => rfl
  | cons b t ih =>
    simp only [List.length_cons] at h
    rw [Mem.writes, ih (Mem.wf_write hm a b) (by omega), Mem.read_write_ne hm b (by omega)]

/-- Consecutive writes are read back. -/
theorem Mem.read_writes_inside {m : Mem} (hm : m.wf = true) {a k : Nat} (bs : List Byte) (h : k < bs.length) :
    (m.writes a bs).read (a + k) = bs.getD k 0 := by
  induction bs generalizing m a k with
  | nil => simp at h
  | cons b t ih =>
    rw [Mem.writes]
    cases k with
    | zero =>
      rw [Mem.read_writes_outside (Mem.wf_write hm a b) t (by omega), Nat.add_zero, Mem.read_write_same hm]
      rfl
    | succ k =>
      rw [show a + (k + 1) = (a + 1) + k by omega, ih (Mem.wf_write hm a b) (by simpa using h)]
      rfl

/-! The memories of the system. -/

/-- Device memory and host memory have the canonical form. -/
theorem State.devWrite_wf {s : State} (h : s.memories.dev.wf = true) (a : Nat) (bs : List Byte) :
    (s.devWrite a bs).memories.dev.wf = true := Mem.wf_writes h a bs

theorem State.hostWrite_wf {s : State} (h : s.memories.host.wf = true) (a : Nat) (bs : List Byte) :
    (s.hostWrite a bs).memories.host.wf = true := Mem.wf_writes h a bs

@[simp] theorem State.devWrite_host (s : State) (a : Nat) (bs : List Byte) :
    (s.devWrite a bs).memories.host = s.memories.host := rfl

@[simp] theorem State.hostWrite_dev (s : State) (a : Nat) (bs : List Byte) :
    (s.hostWrite a bs).memories.dev = s.memories.dev := rfl

@[simp] theorem State.devWrite_poison (s : State) (a : Nat) (bs : List Byte) :
    (s.devWrite a bs).memories.poison = s.memories.poison := rfl

/-- A device byte outside a write. -/
theorem State.devRead_devWrite_outside {s : State} (h : s.memories.dev.wf = true) {a c : Nat} (bs : List Byte)
    (hc : c < a ∨ a + bs.length ≤ c) : (s.devWrite a bs).devRead c = s.devRead c :=
  Mem.read_writes_outside h bs hc

end Sys2Proof.Machine
end

