-- ==== Sys2Proof/Laws/Ops.lean ====
section
/-!
SUPPORT. What the shared operations of Ops.lean do, said once: a Tchieg instruction acts for its issuer, the gate
opens when the checks pass, a lane operation completes, and a held instruction performs once it has settled.
-/

namespace Sys2Proof.Machine

theorem issued_eq {s : State} {c : Ctx} (h : s.Issues c) (body : Ctx → Act) : issued s body = .next (body c).state := by
  simp [issued, h.issuer, h.context]

theorem Ctx.gate_eq {c : Ctx} {n : Need} (h : c.Passes n) (body : Ctx → Act) : c.gate n body = body c := by
  have hw : (c.f.windows.any fun w => meets w.regs n.regs) = false := by
    simpa using h.windows
  have hl : (c.w.loads.any fun l => l.slice == c.r.slice && meets l.writes (c.named n)) = false := by
    simp only [List.any_eq_false, Bool.and_eq_true, beq_iff_eq, not_and, Bool.not_eq_true]
    exact fun l hl hs => h.loads l hl hs
  have hf : (c.f.windows.find? fun w => meets w.regs n.regs) = none := by
    simpa using h.windows
  have hr : (n.noRegion && c.st.region.isSome) = false := by
    cases hn : n.noRegion with
    | false => rfl
    | true => simp [h.outside hn]
  have hg : (n.guard && !c.guardOk) = false := by
    cases hn : n.guard with
    | false => rfl
    | true => simp [h.guards hn]
  unfold Ctx.gate
  rw [Ctx.named] at hl
  have ho := h.owed
  rw [Ctx.named] at ho
  simp [hw, hl, ho, hf, hr, hg, h.legal, h.operands, h.privilege, h.modes, h.clear]

theorem Ctx.heldOp_settled {c : Ctx} {h : Hold} (k : c.Settled h) (n : Need) (start : Ctx → Except Act Hold)
    (perform : Ctx → Hold → Act) : c.heldOp n start perform = perform c h := by
  simp [Ctx.heldOp, k.held, k.settled]

theorem Ctx.heldOp_issue {c : Ctx} {n : Need} (k : c.f.hold = none) (h : c.Passes n) (start : Ctx → Except Act Hold)
    (perform : Ctx → Hold → Act) : c.heldOp n start perform =
      match start c with
      | .error a => a
      | .ok x => .hold { c with s := x.users.foldl (fun s k => s.addUser c.w.core k) c.s } x := by
  simp only [Ctx.heldOp, k, Ctx.gate_eq h] <;> cases start c <;> rfl

/-- The sources that a lane operation reads, its destination last where it reads it. -/
theorem LaneOp.run_eq {o : LaneOp} {c c1 c2 : Ctx} {vals : List (Nat → Dword)} (h : c.Passes (o.need c))
    (hr : c.readAll (if o.readsD then o.srcs ++ [{ spec := o.d, w64 := o.w64, raw := true }] else o.srcs) = .ok c1 vals)
    (hw : c1.writeDst o.d o.w64 (fun l => o.f c1 l (vals.map fun v => v l)) = .ok c2) :
    o.run c = .next c2 (o.la.bind fun k => c.window k o.protect) := by
  simp only [LaneOp.run, Ctx.gate_eq h, hr, hw]

end Sys2Proof.Machine
end

