-- ==== Sys2Proof/Laws/Operands.lean ====
section
/-!
SUPPORT. What reading sources and writing destinations leave alone, and what a context reads again once it has
been put back.
-/

namespace Sys2Proof.Machine

/-! A fragment put back is found again. -/

theorem Ctx.of?_some {s : State} {r : FragRef} {c : Ctx} (h : Ctx.of? s r = some c) :
    c.s = s ∧ c.r = r ∧ s.waves[r.wave]? = some c.w ∧ c.st = c.w.stream r.slice ∧ c.st.frag r.entry = some c.f := by
  unfold Ctx.of? at h
  split at h
  · cases h
  · rename_i w hw
    split at h
    · cases h
    · rename_i f hf
      cases h
      exact ⟨rfl, rfl, hw, rfl, hf⟩

theorem Stream.frag_lt {st : Stream} {e : Nat} {f : Frag} (h : st.frag e = some f) : e < st.frags.length := by
  unfold Stream.frag List.getD at h
  by_cases hl : e < st.frags.length
  · exact hl
  · simp [List.getElem?_eq_none (Nat.le_of_not_lt hl)] at h

@[simp] theorem Stream.setFrag_regs (st : Stream) (e : Nat) (f : Option Frag) : (st.setFrag e f).regs = st.regs := rfl
@[simp] theorem Stream.setFrag_fp (st : Stream) (e : Nat) (f : Option Frag) : (st.setFrag e f).fp = st.fp := rfl
@[simp] theorem Stream.setFrag_exited (st : Stream) (e : Nat) (f : Option Frag) : (st.setFrag e f).exited = st.exited := rfl
@[simp] theorem Stream.setFrag_handler (st : Stream) (e : Nat) (f : Option Frag) :
    (st.setFrag e f).handler = st.handler := rfl
@[simp] theorem Stream.setFrag_region (st : Stream) (e : Nat) (f : Option Frag) : (st.setFrag e f).region = st.region := rfl

/-- The context of a fragment that has been put back. -/
theorem Ctx.of?_out {c : Ctx} (hw : c.r.wave < c.s.waves.length) (he : c.r.entry < c.st.frags.length) :
    Ctx.of? c.out c.r = some
      { s := c.out, r := c.r, w := c.w.setStream c.r.slice (c.st.setFrag c.r.entry (some c.f))
        st := c.st.setFrag c.r.entry (some c.f), f := c.f } := by
  have h1 : c.out.waves[c.r.wave]? = some (c.w.setStream c.r.slice (c.st.setFrag c.r.entry (some c.f))) := by
    simp [Ctx.out, State.updWave, List.getElem?_eq_getElem hw]
  simp [Ctx.of?, h1, Stream.frag_setFrag _ _ _ he]

/-! Sources. -/

/-- What a stream has when it has only dequeued: its fence may have risen (R226). -/
def Stream.fencedFrom (st old : Stream) : Prop := st = { old with fence := st.fence }

theorem Stream.fencedFrom_refl (st : Stream) : st.fencedFrom st := rfl
theorem Stream.fencedFrom_fence (st : Stream) (n : Nat) : Stream.fencedFrom { st with fence := n } st := rfl
theorem Stream.fencedFrom_trans {x y z : Stream} (h : x.fencedFrom y) (h' : y.fencedFrom z) : x.fencedFrom z := by
  unfold Stream.fencedFrom at *
  rw [h, h']

/-- Dequeuing leaves the fragment, its stream but for the fence, and the rest of the machine alone. -/
theorem Ctx.pop_got {c k : Ctx} {x : Spec} {v : Vec} (h : c.pop x = .got k v) :
    k.s = c.s ∧ k.r = c.r ∧ k.st.fencedFrom c.st ∧ k.f = c.f := by
  unfold Ctx.pop at h
  simp only at h
  split at h
  · split at h <;> cases h
  · split at h
    · cases h
    · cases h; exact ⟨rfl, rfl, Stream.fencedFrom_fence _ _, rfl⟩
    · split at h
      · cases h; exact ⟨rfl, rfl, Stream.fencedFrom_fence _ _, rfl⟩
      · cases h
    · cases h

/-- Reading sources leaves the fragment, its stream but for the fence, and the rest of the machine alone. -/
theorem Ctx.readAll_ok {xs : List Src} : ∀ {c k : Ctx} {vals : List (Nat → Dword)}, c.readAll xs = .ok k vals →
    k.s = c.s ∧ k.r = c.r ∧ k.st.fencedFrom c.st ∧ k.f = c.f := by
  induction xs with
  | nil => intro c k vals h; cases h; exact ⟨rfl, rfl, Stream.fencedFrom_refl _, rfl⟩
  | cons x t ih =>
    intro c k vals h
    rw [Ctx.readAll] at h
    split at h
    · split at h
      · cases h
      · cases h
      · cases h
      · rename_i c1 lo h1
        obtain ⟨a1, a2, a3, a4⟩ := Ctx.pop_got h1
        split at h
        · split at h
          · cases h
          · cases h
          · cases h
          · rename_i c2 hi h2
            obtain ⟨b1, b2, b3, b4⟩ := Ctx.pop_got h2
            split at h
            · rename_i c3 vs h3
              obtain ⟨d1, d2, d3, d4⟩ := ih h3
              cases h
              exact ⟨d1.trans (b1.trans a1), d2.trans (b2.trans a2),
                Stream.fencedFrom_trans d3 (Stream.fencedFrom_trans b3 a3), d4.trans (b4.trans a4)⟩
            · rename_i hne; exact absurd h (hne _ _)
        · split at h
          · rename_i c3 vs h3
            obtain ⟨d1, d2, d3, d4⟩ := ih h3
            cases h
            exact ⟨d1.trans a1, d2.trans a2, Stream.fencedFrom_trans d3 a3, d4.trans a4⟩
          · rename_i hne; exact absurd h (hne _ _)
    · split at h
      · rename_i c3 vs h3
        obtain ⟨d1, d2, d3, d4⟩ := ih h3
        cases h
        exact ⟨d1, d2, d3, d4⟩
      · rename_i hne; exact absurd h (hne _ _)

end Sys2Proof.Machine
end

