-- ==== Sys2Proof/Tests/Slice0.lean ====
section
/-!
SUPPORT. Small tests: terms that are not well formed, words written out from the encodings of the manual, one step
of an instruction on a small state, and for each obligation a state and operands that meet its hypotheses.
-/

namespace Sys2Proof.Tests

open Sys2Proof.Machine Sys2Proof.Claims

/-! Well-formedness and decoding. -/

/-- R97, R142, R149, R154, R156, R208, R251, R254, R255, R264, R296 to R298, R301, R312: codes that are not assigned. -/
theorem test_ill_formed : ([.icmp 6 0 (.v 0) (.v 0), .fcmp 13 0 (.v 0) (.v 0), .cvt (.v 0) (.v 0) 0 20,
    .cvt (.v 0) (.v 0) 1 14, .redw (.s 0) (.v 0) 6, .scanw (.v 0) (.v 0) 0 6, .qred (.v 0) (.v 0) 7, .split 1 0 0,
    .ldt (.v 0) (.v 0) 0 3 0, .stt (.v 0) (.v 0) 0 3 0, .pfd (.v 0) 0 0 3, .ats (.v 0) (.v 0) 0 9,
    .atd (.v 0) (.v 0) 0 9, .atx (.v 0) (.v 0) 0 15, .ath (.v 0) (.v 0) 0 9, .cmt 0 0, .cmt 0 6, .abt (.s 0) 0 4,
    .acq 0 0, .acq 0 6, .sync 0 0, .sync 0 6, .binit (.s 0) 0 0 0 1, .binit (.s 0) 0 0 1 3, .binit (.s 0) 0 1 1 0,
    .binit (.s 0) 0 1 0 2, .waitv (.s 0) (.s 0) 0 6, .waitvPoll (.s 0) (.s 0) 0 7, .xloop 6 0 0, .xstride 6 0 0 1,
    .xslot 0 3 0 0 0 0, .xwait 3 0 0 0, .xwaitPoll 3 0 0 0] : List Instr).all (fun i => !i.wellFormed) = true := by
  decide

/-- The codes next to those are assigned. -/
theorem test_well_formed : ([.icmp 5 0 (.v 0) (.v 0), .fcmp 12 0 (.v 0) (.v 0), .cvt (.v 0) (.v 0) 0 19,
    .cvt (.v 0) (.v 0) 7 13, .redw (.s 0) (.v 0) 5, .split 1 0 1, .ldt (.v 0) (.v 0) 0 2 0, .pfd (.v 0) 0 0 2,
    .ats (.v 0) (.v 0) 0 8, .cmt 0 1, .cmt 0 5, .abt (.s 0) 0 0, .abt (.s 0) 0 3, .binit (.s 0) 0 0 1 2,
    .binit (.s 0) 0 1 0 0, .waitv (.s 0) (.s 0) 0 5, .xloop 5 0 0, .xstride 5 0 0 1, .xstride 7 0 0 0,
    .xslot 0 2 0 0 0 0, .xwait 2 0 0 0] : List Instr).all (·.wellFormed) = true := by decide

/-- Each word decodes to its instruction, and the instruction encodes to its word. -/
def readsAs (l : List (Word × Instr)) : Bool := l.all fun p =>
  (match decodeWord p.1 with
    | .ok i => i == p.2
    | .error _ => false) && encodeWord p.2 == some p.1

/-- A word decodes to nothing, for the reason `e`. -/
def refused (w : Word) (e : DecodeError) : Bool := match decodeWord w with
  | .ok _ => false
  | .error x => decide (x = e)

/-- R95 to R97, R100, R117 and the encodings of the rules. -/
theorem test_decode_control : readsAs [
    (0x01000000, .nop), (0x02010005, .mode 0x10005), (0x03170006, .pmode 11 0x10006),
    (0x048500C8, .loop (.s 5) 200), (0x05123407, .loopi 0x1234 7), (0x06000000, .lbrk), (0x07FFFFFE, .bra 0xFFFFFE),
    (0x08800003, .bcc 1 3), (0x09A00006, .bmz 5 6), (0x0A5FFFFF, .bmnz 2 0x1FFFFF), (0x0B7FF809, .split 3 0x3FF 9),
    (0x0C000000, .join), (0x0D000010, .call 0x10), (0x0E000000, .ret), (0x0F009C00, .jmpr (.s 28)),
    (0x10000000, .exit), (0x11CEC200, .cqput (.p 2)), (0x1283CE00, .cqget (.s 3)), (0x13000000, .meet),
    (0x17000042, .trap 0x42), (0x18000000, .yield)] = true := by decide

/-- R95 to R97, R100, R117 and the encodings of the rules. -/
theorem test_decode_moves : readsAs [
    (0x1401FFFE, .ldi (.v 1) 0xFFFE), (0x15811234, .ldih (.s 1) 0x1234),
    (0x1601D000, .mov (.v 1) (.special 0))] = true := by decide

/-- R95 to R97, R100, R117 and the encodings of the rules. -/
theorem test_decode_integer : readsAs [
    (0x20038507, .iadd (.v 3) (.s 5) (.v 7)), (0x21038507, .isub (.v 3) (.s 5) (.v 7)),
    (0x22038507, .imul (.v 3) (.s 5) (.v 7)), (0x23038507, .imulh (.v 3) (.s 5) (.v 7)),
    (0x24038507, .imad (.v 3) (.s 5) (.v 7)), (0x25038507, .imin (.v 3) (.s 5) (.v 7)),
    (0x26038507, .imax (.v 3) (.s 5) (.v 7)), (0x27038500, .iabs (.v 3) (.s 5)), (0x28038500, .ineg (.v 3) (.s 5)),
    (0x290385E7, .and (.v 3) (.s 5) (.ic 7)), (0x2A0385E7, .or (.v 3) (.s 5) (.ic 7)),
    (0x2B0385E7, .xor (.v 3) (.s 5) (.ic 7)), (0x2C0385E7, .andn (.v 3) (.s 5) (.ic 7)),
    (0x2D0385E7, .shl (.v 3) (.s 5) (.ic 7)), (0x2E0385E7, .shr (.v 3) (.s 5) (.ic 7)),
    (0x2F0385E7, .sar (.v 3) (.s 5) (.ic 7)), (0x300385E7, .rol (.v 3) (.s 5) (.ic 7)),
    (0x31038500, .popc (.v 3) (.s 5)), (0x32038500, .clz (.v 3) (.s 5)), (0x33038500, .ctz (.v 3) (.s 5)),
    (0x34038500, .brev (.v 3) (.s 5)), (0x35038507, .bfx (.v 3) (.s 5) (.v 7)),
    (0x36038507, .bfi (.v 3) (.s 5) (.v 7)), (0x37120486, .icmp 2 2 (.v 4) (.s 6)),
    (0x3803C407, .sel (.v 3) (.p 4) (.v 7)), (0x399A9886, .aadd (.s 26) (.s 24) (.s 6)),
    (0x3A030507, .amad (.v 3) (.v 5) (.v 7)), (0x3B0A0203, .tidx (.v 10) (.v 2) 3), (0x3C008400, .frame (.s 4)),
    (0x3D008400, .unframe (.s 4))] = true := by decide

/-- R95 to R97, R100, R117 and the encodings of the rules. -/
theorem test_decode_floating : readsAs [
    (0x600385F9, .fadd (.v 3) (.s 5) (.fc 1)), (0x610385F9, .fsub (.v 3) (.s 5) (.fc 1)),
    (0x620385F9, .fmul (.v 3) (.s 5) (.fc 1)), (0x630385F9, .ffma (.v 3) (.s 5) (.fc 1)),
    (0x640385F9, .ffms (.v 3) (.s 5) (.fc 1)), (0x650385F9, .fmin (.v 3) (.s 5) (.fc 1)),
    (0x660385F9, .fmax (.v 3) (.s 5) (.fc 1)), (0x67038500, .fabs (.v 3) (.s 5)), (0x68038500, .fneg (.v 3) (.s 5)),
    (0x69390303, .fcmp 7 1 (.v 3) (.v 3)), (0x6A030500, .frnd (.v 3) (.v 5)), (0x6B030500, .fcls (.v 3) (.v 5)),
    (0x6C03044C, .cvt (.v 3) (.v 4) 2 12), (0x6D030507, .pack2 (.v 3) (.v 5) (.v 7)),
    (0x6E040200, .unpk (.v 4) (.v 2)), (0x6F080102, .dot4 (.v 8) (.v 1) (.v 2))] = true := by decide

/-- R95 to R97, R100, R117 and the encodings of the rules. -/
theorem test_decode_lanes : readsAs [
    (0x90050681, .shfl (.v 5) (.v 6) (.s 1)), (0x91050681, .shflx (.v 5) (.v 6) (.s 1)),
    (0x92050681, .shflu (.v 5) (.v 6) (.s 1)), (0x93050681, .shfld (.v 5) (.v 6) (.s 1)),
    (0x948206E4, .rdlane (.s 2) (.v 6) (.ic 4)), (0x950286E4, .wrlane (.v 2) (.s 6) (.ic 4)),
    (0x9682C100, .vany (.s 2) (.p 1)), (0x9782C100, .vall (.s 2) (.p 1)), (0x9882C100, .vbal (.s 2) (.p 1)),
    (0x99840700, .redw (.s 4) (.v 7) 0), (0x9A090808, .scanw (.v 9) (.v 8) 1 0), (0x9B820000, .actm (.s 2)),
    (0x9C050600, .qswapx (.v 5) (.v 6)), (0x9D050600, .qswapy (.v 5) (.v 6)), (0x9E050600, .qswapd (.v 5) (.v 6)),
    (0x9F060602, .qbcst (.v 6) (.v 6) 2), (0xA0050605, .qred (.v 5) (.v 6) 5)] = true := by decide

/-- R95 to R97, R100, R117 and the encodings of the rules. -/
theorem test_decode_system : readsAs [
    (0xB083E200, .sysr (.s 3) (.ic 2)), (0xB100E083, .sysw (.ic 0) (.s 3)), (0xB28400E0, .time (.s 4) 0),
    (0xB28400E1, .time (.s 4) 1), (0xB3008184, .tarm (.s 1) (.s 4)), (0xB4828100, .twait (.s 2) (.s 1)),
    (0xB5000008, .grow 8), (0xB6000078, .shrink 120), (0xB7000000, .idem), (0xB8000000, .idemx),
    (0xB9000000, .tret), (0xBA000000, .bkpt), (0xBB008700, .mark (.s 7)), (0xBC848700, .pmrd (.s 4) (.s 7)),
    (0xBD00E386, .succ (.ic 3) (.s 6)), (0xBE848700, .thchk (.s 4) (.s 7)),
    (0xBF840000, .cstat (.s 4))] = true := by decide

/-- R95 to R97, R100, R117 and the encodings of the rules. -/
theorem test_decode_memory : readsAs [
    (0xC0030502, .ldp (.v 3) 5 0 2), (0xC1060203, .stp (.v 6) 2 0 3), (0xC2070206, .lds (.v 7) (.v 2) 0 1 2),
    (0xC3070296, .sts (.v 7) (.v 2) 9 1 2), (0xC4070297, .ats (.v 7) (.v 2) 9 7),
    (0xC509030A, .ldt (.v 9) (.v 3) 0 2 2), (0xC6090395, .stt (.v 9) (.v 3) 9 1 1),
    (0xC7040226, .ldd (.v 4) (.v 2) 2 1 2), (0xC8CC0302, .std (.sq 0) (.v 3) 0 0 2),
    (0xC9080108, .lddw (.v 8) (.v 1) 0 2), (0xCA08019C, .stdw (.v 8) (.v 1) 9 3),
    (0xCB8A8C0E, .sldd (.s 10) (.s 12) 0 3 2), (0xCC8A8C02, .sstd (.s 10) (.s 12) 0 0 2),
    (0xCD070298, .atd (.v 7) (.v 2) 9 8), (0xCE000305, .pfd (.v 3) 0 1 1), (0xCF040A02, .ldx (.v 4) (.v 10) 0 2),
    (0xD0050A02, .stx (.v 5) (.v 10) 0 2), (0xD1050A00, .atx (.v 5) (.v 10) 0 0),
    (0xD204010B, .ldh (.v 4) (.v 1) 0 2 3), (0xD304019B, .sth (.v 4) (.v 1) 9 2 3),
    (0xD4040196, .ath (.v 4) (.v 1) 9 6)] = true := by decide

/-- R95 to R97, R100, R117 and the encodings of the rules. -/
theorem test_decode_order : readsAs [
    (0xD5000095, .cmt 9 5), (0xD6830093, .abt (.s 3) 9 3), (0xD7000091, .acq 9 1), (0xD8000094, .sync 9 4),
    (0xD9008405, .binit (.s 4) 0 0 1 1), (0xD9008408, .binit (.s 4) 0 1 0 0), (0xDA858400, .barv (.s 5) (.s 4) 0),
    (0xDB858400, .barw (.s 5) (.s 4) 0 0), (0xDCE18400, .bwait (.ic 1) (.s 4) 0 0),
    (0xDDE18402, .brema (.ic 1) (.s 4) 0 2), (0xDE868400, .aexp (.s 6) (.s 4) 0),
    (0xDF868400, .await (.s 6) (.s 4) 0 0), (0xE0008400, .arel (.s 4) 0)] = true := by decide

/-- R95 to R97, R100, R117 and the encodings of the rules. -/
theorem test_decode_units : readsAs [
    (0xE1008803, .acpy (.s 8) 0 3), (0xE2828300, .cwait (.s 2) (.s 3) 0), (0xE3828300, .cpoll (.s 2) (.s 3) 0),
    (0xE3828401, .cpollE (.s 2) (.s 4) 0), (0xE4828490, .sstart (.s 2) (.s 4) 9), (0xE5820090, .sstop (.s 2) 9),
    (0xE6828490, .sstat (.s 2) (.s 4) 9), (0xE7C88891, .mmx (.lq 0) (.s 8) 9 1),
    (0xE8008800, .gmmx (.v 0) (.s 8) 0 0), (0xE9030590, .rqnt (.v 3) (.v 5) 9),
    (0xEA948803, .cpack (.s 20) (.s 8) 0 1 1), (0xEB108902, .crd (.v 16) (.s 9) 0 2),
    (0xEC108900, .cwr (.v 16) (.s 9) 0 0), (0xED008900, .czero (.s 9) 0), (0xEE838601, .thal (.s 3) (.s 6) 0 1),
    (0xEF008300, .thfree (.s 3) 0)] = true := by decide

/-- R95 to R97, R100, R117 and the encodings of the rules. -/
theorem test_decode_long : readsAs [
    (0xF0040530, .idiv (.v 4) (.v 5) 3), (0xF1040530, .irem (.v 4) (.v 5) 3), (0xF2040530, .fdiv (.v 4) (.v 5) 3),
    (0xF3040530, .frcp (.v 4) (.v 5) 3), (0xF4040530, .frsq (.v 4) (.v 5) 3), (0xF5040530, .fsqrt (.v 4) (.v 5) 3),
    (0xF6040530, .fexp2 (.v 4) (.v 5) 3), (0xF7040530, .flog2 (.v 4) (.v 5) 3), (0xF8040530, .fsin (.v 4) (.v 5) 3),
    (0xF9040530, .fcos (.v 4) (.v 5) 3), (0xFA040530, .ftanh (.v 4) (.v 5) 3), (0xFB008403, .shld (.s 4) 0 3),
    (0xFC838401, .recv (.s 3) (.s 4) 0 0 1), (0xFD838490, .msend (.s 3) (.s 4) 9),
    (0xFE838490, .spawn (.s 3) (.s 4) 9), (0xFF848601, .waitv (.s 4) (.s 6) 0 1)] = true := by decide

/-- R97, R118, R304: words that are not instructions. -/
theorem test_not_words : (refused 0x00000000 .unassigned && refused 0x01000001 .reserved && refused 0x19000000 .unassigned &&
    refused 0x37920486 .reserved && refused 0xB28400E2 .operand && refused 0xC9080109 .reserved) = true := by decide

/-- R296: the words of a command, W0 first. -/
def commandReads (ws : List Word) (i : Instr) : Bool :=
  decodeCommandBytes (ws.flatMap bytesOfWord) == some i && encodeCommand i == some ws

/-- R296: one command of each code. -/
theorem test_decode_commands : ([([0x00FF0501, 7, 0, 0], .xloop 5 255 7), ([0x00000302, 1, 2, 3], .xstride 3 1 2 3),
    ([0x20001903, 0xFFFFFFFC, 0x00030040, 64], .xfer 9 true 0x20 0xFFFFFFFC 0x40 3 64),
    ([0x01000204, 8, 0x00010020, 32], .xgather 2 false 1 8 0x20 1 32), ([0x00000405, 6, 0, 0], .xarrive 4 6),
    ([0x00002F06, 9, 0x401, 0x0000C005], .xslot 15 2 9 0x401 5 3), ([0x00000007, 0xFFFFFFFF, 0, 0], .xjump 0xFFFFFFFF),
    ([0x00000008, 0, 0, 0], .xhalt), ([0x00000009, 0, 0, 0], .xfence),
    ([0x0000110A, 4, 64, 32], .xscale 1 true 4 64 32), ([0x0000020B, 8, 1, 0xFF], .xwait 2 8 1 0xFF),
    ([0x0000000C, 8, 1, 0], .xflag 8 1)] : List (List Word × Instr)).all (fun p => commandReads p.1 p.2) = true := by
  decide

/-- R296: a reserved bit and an unassigned code. -/
theorem test_not_commands : decodeCommandBytes ([0x00000108, 0, 0, 0].flatMap bytesOfWord) = none ∧
    decodeCommandBytes ([0x0000000D, 0, 0, 0].flatMap bytesOfWord) = none ∧
    decodeCommandBytes ([0x00000602, 0, 0, 1].flatMap bytesOfWord) = none := by decide

/-- The table's numbering of a word's bits and of a command's. -/
theorem test_table_words : decodeTableWord 32 0x11CEC200 = some (.cqput (.p 2)) ∧
    decodeTableWord 128 (0x00FF0501 + 2 ^ 32 * 7) = some (.xloop 5 255 7) := by decide

/-! Small states: one coupled wave of the physical function, with an identity translation of device space. -/

def r0 : FragRef := { wave := 0, slice := .c, entry := 0 }

/-- The fragment `r` issues. -/
def State.by (s : State) (r : FragRef := r0) : State := { s with issuer := .frag r }

def base : State := State.by State.reset.identityMap.withWave

def onWave (f : Wave → Wave) (s : State) : State := s.updWave 0 f
def onStream (f : Stream → Stream) : State → State := onWave fun w => { w with c := f w.c }
def onFrag (f : Frag → Frag) : State → State := onStream fun st => { st with frags := st.frags.modify 0 (·.map f) }
def onCtl (f : Ctl → Ctl) : State → State := onFrag fun x => { x with ctl := f x.ctl }
/-- The state under an element type, with the other mode fields zero. -/
def under (et : Nat) : State → State := onCtl fun k => { k with mode := BitVec.ofNat 17 et }
def setS (n : Nat) (v : Word) : State → State := onStream fun st => { st with regs := { st.regs with s := st.regs.s.set n v } }
def setV (n : Nat) (f : Nat → Word) : State → State :=
  onStream fun st => { st with regs := { st.regs with v := st.regs.v.set n (Vec.build f) } }

/-- The context of a fragment as it stands. -/
def ctx (s : State) (r : FragRef := r0) : Ctx :=
  { s := s, r := r, w := s.wave r.wave, st := (s.wave r.wave).stream r.slice
    f := (((s.wave r.wave).stream r.slice).frag r.entry).getD default }

theorem issues (s : State) (r : FragRef) (h : s.issuer = .frag r) (k : ((s.waves[r.wave]?).bind fun w =>
    (w.stream r.slice).frag r.entry).isSome = true) : s.Issues (ctx s r) := by
  refine ⟨h, ?_⟩
  unfold Ctx.of? ctx State.wave
  cases hw : s.waves[r.wave]? with
  | none => simp [hw] at k
  | some w =>
    simp only [hw, Option.bind_some, Option.isSome_iff_exists] at k
    obtain ⟨f, hf⟩ := k
    simp [hf, hw]

theorem base_issues : base.Issues (ctx base) := issues _ _ rfl rfl

/-- The checks of R119 pass: a test that can be run. -/
def passesB (c : Ctx) (n : Need) : Bool :=
  c.w.loads.isEmpty && !Machine.meets c.owed (c.named n) && !n.illegal && (!n.noRegion || c.st.region.isNone) && !n.operand && (!n.guard || c.guardOk) &&
    !n.priv && !n.mode && c.f.windows.isEmpty && n.post.isNone

theorem passes {c : Ctx} {n : Need} (h : passesB c n = true) : c.Passes n := by
  simp only [passesB, Bool.and_eq_true, Bool.not_eq_true', Bool.or_eq_true, List.isEmpty_iff, Option.isNone_iff_eq_none] at h
  obtain ⟨⟨⟨⟨⟨⟨⟨⟨⟨h1, h0⟩, h2⟩, h3⟩, h4⟩, h5⟩, h6⟩, h7⟩, h8⟩, h9⟩ := h
  exact ⟨by simp [h1], h0, h2, fun k => h3.resolve_left (by simp [k]), h4, fun k => h5.resolve_left (by simp [k]), h6, h7,
    by simp [h8], h9⟩

def canRunB (c : Ctx) (o : LaneOp) : Bool :=
  passesB c (o.need c) && match c.readAll (reads o) with
  | .ok c1 vals => (match c1.writeDst o.d o.w64 (fun l => o.f c1 l (vals.map fun v => v l)) with
    | .ok _ => true
    | _ => false)
  | _ => false

theorem canRun {c : Ctx} {o : LaneOp} (h : canRunB c o = true) : ∃ c1 vals c2, CanRun c o c1 vals c2 := by
  simp only [canRunB, Bool.and_eq_true] at h
  obtain ⟨hp, h⟩ := h
  cases hr : c.readAll (reads o) with
  | ok c1 vals =>
    cases hw : c1.writeDst o.d o.w64 (fun l => o.f c1 l (vals.map fun v => v l)) with
    | ok c2 => exact ⟨c1, vals, c2, passes hp, hr, hw⟩
    | _ => simp [hr, hw] at h
  | _ => simp [hr] at h

theorem allRun {c : Ctx} {l : List LaneForm} (h : (l.all fun f => canRunB c f.op) = true) :
    ∀ f ∈ l, ∃ c1 vals c2, CanRun c f.op c1 vals c2 :=
  fun f hf => canRun (List.all_eq_true.1 h f hf)

/-- The state that a step of `i` gives from `s`. -/
def after (i : Instr) (s : State) : State := match exec i s with
  | .next t => t
  | _ => s

def vreg (s : State) (n l : Nat) : Word := ((s.wave 0).c.regs.vec n).lane l
def sreg (s : State) (n : Nat) : Word := (s.wave 0).c.regs.uni n
def frag0 (s : State) : Frag := (((s.wave 0).c).frag 0).getD default

/-! Lane-executed and uniform arithmetic. -/

theorem test_meets_IntegerArithmetic : (under 1 base).Issues (ctx (under 1 base)) ∧
    ∀ f ∈ intForms (ctx (under 1 base)) (.v 0) (.v 2) (.v 4) 3, ∃ c1 vals c2,
      CanRun (ctx (under 1 base)) f.op c1 vals c2 := ⟨issues _ _ rfl rfl, allRun (by decide)⟩

theorem test_meets_BitsAndMoves : base.Issues (ctx base) ∧
    ∀ f ∈ bitForms (ctx base) (.v 0) (.v 2) (.v 4) ++ moveForms (ctx base) (.v 0) (.v 2) (.v 4) 0x8000, ∃ c1 vals c2,
      CanRun (ctx base) f.op c1 vals c2 := ⟨base_issues, allRun (by decide)⟩

theorem test_meets_FloatingPoint : (under 5 base).Issues (ctx (under 5 base)) ∧
    ∀ f ∈ floatForms (ctx (under 5 base)) (.v 0) (.v 2) (.v 4) 15, ∃ c1 vals c2,
      CanRun (ctx (under 5 base)) f.op c1 vals c2 := ⟨issues _ _ rfl rfl, allRun (by decide)⟩

theorem test_meets_ConversionsAndShuffles : (under 7 base).Issues (ctx (under 7 base)) ∧
    (∀ f ∈ (packForms (ctx (under 7 base)) (.v 0) (.v 2) (.v 4) 1 0 0).take 2, ∃ c1 vals c2,
      CanRun (ctx (under 7 base)) f.op c1 vals c2) ∧
    (∀ f ∈ (packForms (ctx (under 9 base)) (.v 0) (.v 2) (.v 4) 0 18 0).drop 2, ∃ c1 vals c2,
      CanRun (ctx (under 9 base)) f.op c1 vals c2) ∧
    ∀ f ∈ shuffleForms (ctx (under 7 base)) (.v 0) (.v 2) (.s 4) 3, ∃ c1 vals c2,
      CanRun (ctx (under 7 base)) f.op c1 vals c2 :=
  ⟨issues _ _ rfl rfl, allRun (by decide), allRun (by decide), allRun (by decide)⟩

/-- The last vector register, and a pair under a 64-bit type. -/
theorem test_meets_VectorResult : (∃ f ∈ laneForms (ctx base) (.v 31) (.v 2) (.v 4) 0 0 0 0 0, f.op.d = .v 31 ∧
      noQueue f.op ∧ f.op.w64 = false ∧ ∃ c1 vals c2, CanRun (ctx base) f.op c1 vals c2) ∧
    ∃ f ∈ laneForms (ctx (under 3 base)) (.v 30) (.v 2) (.v 4) 0 0 0 0 0, f.op.d = .v 30 ∧ noQueue f.op ∧
      f.op.w64 = true ∧ 30 + 1 < (ctx (under 3 base)).st.regs.v.length ∧
      ∃ c1 vals c2, CanRun (ctx (under 3 base)) f.op c1 vals c2 :=
  ⟨⟨_, List.mem_append_left _ (List.mem_append_left _ (List.mem_append_left _ (List.mem_append_left _
      (List.mem_append_right _ (List.mem_cons_self ..))))), rfl, ⟨rfl, by decide⟩, rfl, canRun (by decide)⟩,
    _, List.mem_append_left _ (List.mem_append_left _ (List.mem_append_left _ (List.mem_append_left _
      (List.mem_append_left _ (List.mem_cons_self ..))))), rfl, ⟨rfl, by decide⟩, rfl, by decide, canRun (by decide)⟩

theorem test_meets_UniformResult : ∃ f ∈ laneForms (ctx (under 3 base)) (.s 62) (.s 2) (.s 4) 0 0 0 0 0,
    f.op.d = .s 62 ∧ noQueue f.op ∧ 62 + 1 < (ctx (under 3 base)).st.regs.s.length ∧ f.op.w64 = true ∧
      ∃ c1 vals c2, CanRun (ctx (under 3 base)) f.op c1 vals c2 :=
  ⟨_, List.mem_append_left _ (List.mem_append_left _ (List.mem_append_left _ (List.mem_append_left _
      (List.mem_append_left _ (List.mem_cons_self ..))))), rfl, ⟨rfl, by decide⟩, by decide, rfl, canRun (by decide)⟩

/-- R137: an n32 sum wraps, and SAT clamps it. -/
theorem test_iadd : vreg (after (.iadd (.v 1) (.ic 16) (.ic 2)) (under 2 base)) 1 31 = 1 ∧
    vreg (after (.iadd (.v 1) (.ic 16) (.ic 2)) (under (2 + 2 ^ 12) base)) 1 31 = 0xFFFFFFFF := by decide

/-- R137: the low and the high word of a signed product, the sum that IMAD adds to, and the rest of the family. -/
theorem test_integer : vreg (after (.imul (.v 1) (.ic 17) (.ic 3)) (under 1 base)) 1 0 = 0xFFFFFFFA ∧
    vreg (after (.imulh (.v 1) (.ic 17) (.ic 3)) (under 1 base)) 1 0 = 0xFFFFFFFF ∧
    vreg (after (.imad (.v 1) (.ic 3) (.ic 4)) (under 1 (setV 1 (BitVec.ofNat 32) base))) 1 5 = 17 ∧
    vreg (after (.isub (.v 1) (.ic 3) (.ic 4)) (under 1 base)) 1 0 = 0xFFFFFFFF ∧
    vreg (after (.imin (.v 1) (.ic 16) (.ic 4)) (under 1 base)) 1 0 = 0xFFFFFFFF ∧
    vreg (after (.imax (.v 1) (.ic 16) (.ic 4)) (under 1 base)) 1 0 = 4 ∧
    vreg (after (.iabs (.v 1) (.ic 17)) (under 1 base)) 1 0 = 2 ∧
    vreg (after (.ineg (.v 1) (.ic 2)) (under 1 base)) 1 0 = 0xFFFFFFFE := by decide

/-- R76: division by zero, and truncation toward zero. -/
theorem test_idiv : vreg (after (.idiv (.v 1) (.ic 0) 0) (under 1 (setV 1 (fun _ => 7) base))) 1 0 = 0xFFFFFFFF ∧
    vreg (after (.irem (.v 1) (.ic 0) 0) (under 1 (setV 1 (fun _ => 7) base))) 1 0 = 7 ∧
    vreg (after (.idiv (.v 1) (.ic 2) 0) (under 1 (setV 1 (fun _ => 0xFFFFFFF9) base))) 1 0 = 0xFFFFFFFD ∧
    vreg (after (.irem (.v 1) (.ic 2) 0) (under 1 (setV 1 (fun _ => 0xFFFFFFF9) base))) 1 0 = 0xFFFFFFFF := by decide

/-- R139, R140: shifts by the width and more, a rotate, the counts, and fields. -/
theorem test_bits :
    let s := setS 4 32 (setS 5 0x80000001 base)
    let u := fun i => sreg (after i s) 6
    u (.shl (.s 6) (.s 5) (.s 4)) = 0 ∧ u (.shr (.s 6) (.s 5) (.ic 1)) = 0x40000000 ∧
    u (.sar (.s 6) (.s 5) (.s 4)) = 0xFFFFFFFF ∧ u (.rol (.s 6) (.s 5) (.ic 1)) = 3 ∧
    u (.popc (.s 6) (.s 5)) = 2 ∧ u (.clz (.s 6) (.ic 1)) = 31 ∧ u (.ctz (.s 6) (.ic 0)) = 32 ∧
    u (.brev (.s 6) (.ic 1)) = 0x80000000 ∧ u (.and (.s 6) (.s 5) (.ic 3)) = 1 ∧ u (.or (.s 6) (.s 5) (.ic 2)) = 0x80000003 ∧
    u (.xor (.s 6) (.s 5) (.ic 3)) = 0x80000002 ∧ u (.andn (.s 6) (.s 5) (.ic 1)) = 0x80000000 := by decide

/-- R140: BFX of eight bits from bit 28, and BFI of four bits at bit 4. -/
theorem test_fields :
    let s := setS 4 0x081C (setS 3 0x0404 (setS 5 0x90000001 (setS 6 0xFFFFFFFF base)))
    sreg (after (.bfx (.s 6) (.s 5) (.s 4)) s) 6 = 9 ∧
    sreg (after (.bfx (.s 6) (.s 5) (.s 4)) (under 1 s)) 6 = 0xFFFFFFF9 ∧
    sreg (after (.bfi (.s 6) (.ic 5) (.s 3)) s) 6 = 0xFFFFFF5F := by decide

/-- R136, R143, R144: immediates, select and addresses. -/
theorem test_moves :
    let s := setS 4 0xFFFFFFFF (setS 5 0 (setS 7 0x00000001 (setS 6 0x12345678 base)))
    sreg (after (.ldi (.s 6) 0x8000) s) 6 = 0xFFFF8000 ∧ sreg (after (.ldih (.s 6) 0x8000) s) 6 = 0x80005678 ∧
    vreg (after (.mov (.v 1) (.special 0)) s) 1 19 = 19 ∧ sreg (after (.sel (.s 6) (.ic 0) (.ic 5)) s) 6 = 0x12345678 ∧
    sreg (after (.sel (.s 6) (.ic 1) (.ic 5)) s) 6 = 5 ∧ sreg (after (.aadd (.s 4) (.s 4) (.ic 1)) s) 5 = 1 ∧
    sreg (after (.amad (.s 6) (.ic 3) (.ic 4)) s) 6 = 0x12345684 := by decide

/-- R147, R148: 1 + 0.5, 2 · 4 + 1, 1 / 2, √4, and what FCLS says of −1. -/
theorem test_floats :
    let s := under 5 (setS 6 0x3F800000 base)
    let u := fun i => sreg (after i s) 6
    u (.fadd (.s 6) (.fc 1) (.fc 0)) = 0x3FC00000 ∧ u (.fsub (.s 6) (.fc 1) (.fc 2)) = 0xBF800000 ∧
    u (.fmul (.s 6) (.fc 2) (.fc 3)) = 0x41000000 ∧ u (.ffma (.s 6) (.fc 2) (.fc 3)) = 0x41100000 ∧
    u (.ffms (.s 6) (.fc 2) (.fc 3)) = 0x40E00000 ∧ u (.fmin (.s 6) (.fc 2) (.fc 5)) = 0xBF800000 ∧
    u (.fmax (.s 6) (.fc 2) (.fc 5)) = 0x40000000 ∧ u (.fabs (.s 6) (.fc 5)) = 0x3F800000 ∧
    u (.fneg (.s 6) (.fc 1)) = 0xBF800000 ∧ u (.fdiv (.s 6) (.fc 2) 0) = 0x3F000000 ∧ u (.frcp (.s 6) (.fc 3) 0) = 0x3E800000 ∧
    u (.fsqrt (.s 6) (.fc 3) 0) = 0x40000000 ∧ u (.frnd (.s 6) (.fc 0)) = 0 := by decide +kernel

/-- R149, R150, R289: a nibble widened, two binary16 from binary32, a dot product, and requantising zeros. -/
theorem test_packed :
    let s := setS 4 0x3C (setS 5 0x01020304 (setS 6 5 base))
    sreg (after (.cvt (.s 6) (.s 4) 0 13) (under 1 s)) 6 = 0xFFFFFFFC ∧
    sreg (after (.pack2 (.s 6) (.fc 1) (.fc 2)) (under 7 s)) 6 = 0x40003C00 ∧
    sreg (after (.dot4 (.s 6) (.s 5) (.s 5)) (under 10 s)) 6 = 35 := by decide

/-- R151, R152: lane 0 of each shuffle of a register that holds the lane numbers. -/
theorem test_shuffles :
    let s := setV 2 (BitVec.ofNat 32) base
    let u := fun i l => vreg (after i s) 1 l
    u (.shfl (.v 1) (.v 2) (.ic 9)) 0 = 9 ∧ u (.shflx (.v 1) (.v 2) (.ic 1)) 6 = 7 ∧ u (.shflu (.v 1) (.v 2) (.ic 2)) 1 = 1 ∧
    u (.shflu (.v 1) (.v 2) (.ic 2)) 2 = 0 ∧ u (.shfld (.v 1) (.v 2) (.ic 2)) 29 = 31 ∧ u (.shfld (.v 1) (.v 2) (.ic 2)) 30 = 30 ∧
    u (.qswapx (.v 1) (.v 2)) 4 = 5 ∧ u (.qswapy (.v 1) (.v 2)) 4 = 6 ∧ u (.qswapd (.v 1) (.v 2)) 4 = 7 ∧
    u (.qbcst (.v 1) (.v 2) 2) 4 = 6 ∧ sreg (after (.rdlane (.s 6) (.v 2) (.ic 5)) s) 6 = 5 ∧
    u (.wrlane (.v 2) (.ic 9) (.ic 3)) 3 = 0 := by decide

/-! Comparisons, lanes, control. -/

/-- The fragment of `s` issues, and its checks pass. -/
structure Meets (s : State) (n : Need) : Prop where
  issues : s.Issues (ctx s)
  passes : (ctx s).Passes n

theorem meets {s : State} {n : Need} (h : s.issuer = .frag r0) (k : ((s.waves[0]?).bind fun w =>
    (w.stream .c).frag 0).isSome = true) (p : passesB (ctx s) n = true) : Meets s n :=
  ⟨issues s r0 h k, Tests.passes p⟩

def readB (c : Ctx) (f : ReadForm) : Bool := passesB c f.need && match c.readAll f.srcs with
  | .ok _ _ => true
  | _ => false

theorem readsB {c : Ctx} {f : ReadForm} (h : readB c f = true) :
    c.Passes f.need ∧ ∃ c1 vals, c.readAll f.srcs = .ok c1 vals := by
  simp only [readB, Bool.and_eq_true] at h
  refine ⟨passes h.1, ?_⟩
  cases hr : c.readAll f.srcs with
  | ok c1 vals => exact ⟨c1, vals, rfl⟩
  | _ => simp [hr] at h

/-- A compare per lane and a uniform one, with the last assigned condition. -/
theorem test_meets_Compares : base.Issues (ctx base) ∧ (∀ b : Spec, b = .s 3 ∨ b = .v 3 →
    readB (ctx base) (compareForm (ctx base) (.icmp 5 7 (.s 2) b) false [0, 1, 2, 3, 4] 7 (.s 2) b fun _ _ => true) = true ∧
    readB (ctx (under 5 base)) (compareForm (ctx (under 5 base)) (.fcmp 12 0 (.s 2) b) false [5, 6] 0 (.s 2) b
      fun _ _ => true) = true) ∧ XReal.cmp (f32.read false 0x7FC00000) (f32.read false 0) = none ∧
    XReal.cmp (f32.read false 0x80000000) (f32.read false 0) = some .eq :=
  ⟨base_issues, by rintro b (rfl | rfl) <;> exact ⟨rfl, rfl⟩, by decide, by decide⟩

/-- A context whose shape entry 15 has five coordinates, the most there can be. -/
def shaped : State := (under 7 base).updContext 96 0 fun k => { k with
  shapes := k.shapes.set 15 { e := [12, 5, 7, 2, 2], m := [0xAAAAAAAB, 0xCCCCCCCD, 1, 1], sh := [3, 2, 0, 0], ndim := 5 } }

theorem test_meets_LanesAndVotes : Meets shaped {} ∧ (ctx shaped).shapePending 15 = false ∧
    readB (ctx shaped) (runForm (ctx shaped) (.tidx (.v 27) (.v 2) 15) (.v 27) { spec := .v 2, raw := true } 5
      (!runOk (ctx shaped) (.v 27) (max 1 5) || 5 == 0) false fun _ _ _ => 0) = true ∧
    readB (ctx shaped) (runForm (ctx shaped) (.unpk (.v 30) (.v 2)) (.v 30) { spec := .v 2, et := some 7 } (etCount 7)
      (!runOk (ctx shaped) (.v 30) (etCount 7)) false fun _ _ _ => 0) = true ∧
    (ctx shaped).Passes { operand := !(ctx shaped).uniRegOk (.s 63) 1 1 || !(ctx shaped).predSpec (.p 7), guard := true } ∧
    (ctx shaped).Passes { operand := !isVec (.v 31) || !(ctx shaped).dstOk (.v 31) 1 } :=
  ⟨meets rfl rfl rfl, rfl, by decide, by decide, passes (by decide), passes (by decide)⟩

theorem test_meets_Reductions : Meets base ((ctx base).redNeed (.s 1) (.v 2) 0 true) ∧
    Meets (under 6 base) ((ctx (under 6 base)).redNeed (.v 0) (.v 30) 2 false) :=
  ⟨meets rfl rfl (by decide), meets rfl rfl (by decide)⟩

theorem test_meets_ScanCombines : (∀ x y z : Nat, (x + y) + z = x + (y + z)) ∧
    ((List.range 32).map some : List (Option Nat)).length = 32 := ⟨Nat.add_assoc, rfl⟩

theorem test_meets_ModeRegister : Meets base {} ∧ (ctx base).f.ctl.count = 0 := ⟨meets rfl rfl rfl, rfl⟩

/-- Two loops are active, the inner body the instruction at hand and the next; one more may start. -/
def looping : State := onCtl (fun k => { k with
  loops := [⟨2, BitVec.ofNat 64 fetchVa, BitVec.ofNat 64 fetchVa + 4⟩,
    ⟨1, BitVec.ofNat 64 fetchVa, BitVec.ofNat 64 fetchVa + 4⟩] }) (setS 5 3 base)

theorem test_meets_Loops : Meets looping { operand := !(ctx looping).loopSrcOk (.s 5), regs := specRegs (.s 5) 1 } ∧
    (ctx looping).f.ctl.loops.length < 3 ∧ (∀ l ∈ (ctx looping).f.ctl.loops.head?, bodyEnd (ctx looping) 1 ≤ l.last) ∧
    (ctx looping).uval (.s 5) ≠ 0 ∧ (ctx looping).uval (.s 6) = 0 ∧ (∃ l t, (ctx looping).f.ctl.loops = l :: t) ∧
    Meets base {} ∧ (ctx base).f.ctl.loops = [] :=
  ⟨meets rfl rfl (by decide), by decide, by decide, by decide, by decide, ⟨_, _, rfl⟩, meets rfl rfl rfl, rfl⟩

def stacked (l : List StackRec) : State := onFrag (fun f => { f with stack := l }) base
def here : Dword := BitVec.ofNat 64 fetchVa

/-- 15 records and a call record on top; p1 holds in the last lane, p0 in none; s4:s5 is an aligned address. -/
def calling : State := onStream (fun st => { st with regs := { st.regs with p := st.regs.p.set 1 0x80000000 } })
  (setS 4 8 (stacked (.call 4 :: List.replicate 14 (.trivial 8))))

theorem test_meets_Transfers : Meets calling { operand := !(ctx calling).predOk 1, regs := [.p 1] } ∧
    Meets calling { operand := !(ctx calling).uniRegOk (.s 4) 2 2, regs := specRegs (.s 4) 2 } ∧
    (ctx calling).f.ctl.cc = (0#1 == 1#1) ∧ (ctx calling).f.ctl.cc ≠ (1#1 == 1#1) ∧ (ctx calling).f.stack.length < 16 ∧
    (∃ ret rest, (ctx calling).f.stack = .call ret :: rest) ∧
    (ctx calling).rd.pred 2 &&& (ctx calling).f.mask = 0 ∧ (ctx calling).rd.pred 1 &&& (ctx calling).f.mask ≠ 0 ∧
    ((ctx calling).uval64 (.s 4)).toNat % 4 = 0 :=
  ⟨meets rfl rfl (by decide), meets rfl rfl (by decide), rfl, by decide, by decide, ⟨_, _, rfl⟩, by decide, by decide,
    by decide⟩

/-- p1 holds in one lane, p2 in none, p0 in all; the split table of `full` has no free entry. -/
def splitting : State := onStream (fun st => { st with regs := { st.regs with p := st.regs.p.set 1 1 } }) base
def full : State := onStream (fun st => { st with frags := st.frags.map fun x => x.orElse fun _ => some { pc := 0, mask := 0 } }) splitting

theorem test_meets_Splits : (∀ p < 3, (splitting.Issues (ctx splitting) ∧
      (ctx splitting).Passes { illegal := 1#11 == 0#11, operand := !(ctx splitting).predOk p, regs := [.p p] }) ∧
      (ctx splitting).f.stack.length < 16) ∧
    (let c := ctx splitting
     c.f.mask &&& c.rd.pred 2 = 0 ∧ c.f.mask &&& c.rd.pred 1 ≠ 0 ∧ c.f.mask &&& ~~~c.rd.pred 1 ≠ 0 ∧
     c.f.mask &&& ~~~c.rd.pred 0 = 0 ∧ c.st.region = none ∧ c.st.freeEntry = some 1 ∧ 1 < c.st.frags.length) ∧
    full.Issues (ctx full) ∧ (ctx full).st.freeEntry = none :=
  ⟨fun p hp => ⟨⟨issues _ _ rfl rfl, by
    match p, hp with
    | 0, _ => exact passes (by decide)
    | 1, _ => exact passes (by decide)
    | 2, _ => exact passes (by decide)⟩, by decide⟩, by decide, issues _ _ rfl rfl, by decide⟩

/-- Two fragments of split 0, the fall-through one at the JOIN and the other parked there or still going. -/
def joining (other : Option Park) : State := onStream (fun st => { st with
  frags := some { pc := here, mask := 0xFFFF, stack := [.table here 0 true] } ::
    some { pc := here, mask := 0xFFFF0000, stack := [.table here 0 false], park := other } :: List.replicate 6 none }) base

theorem test_meets_Joins : Meets (stacked [.trivial here]) {} ∧ Meets (stacked []) {} ∧ Meets (stacked [.call 0]) {} ∧
    (∃ j t, (ctx (stacked [.trivial here])).f.stack = .trivial j :: t) ∧
    (∀ d, Meets (stacked [.masked here d 1 3 8 {}]) {} ∧ (ctx (stacked [.masked here d 1 3 8 {}])).f.pc = here ∧
      1#32 &&& (ctx (stacked [.masked here d 1 3 8 {}])).w.presentIn .c ≠ 0) ∧
    Meets (stacked [.masked 0 false 1 3 8 {}]) {} ∧ (0 : Dword) ≠ here ∧
    (let c := ctx (joining none)
     Meets (joining none) {} ∧ c.f.stack = [.table c.f.pc 0 true] ∧
     ∃ e f, e ≠ c.r.entry ∧ c.st.frag e = some f ∧ f.stack.any (·.isTable 0) ∧ f.park ≠ some (.join 0)) ∧
    (let c := ctx (joining (some (.join 0)))
     Meets (joining (some (.join 0))) {} ∧ ∀ e f, c.st.frag e = some f → e ≠ c.r.entry → f.stack.any (·.isTable 0) →
       f.park = some (.join 0) ∧ ∀ j' i, f.stack.head? ≠ some (.table j' i true)) := by
  refine ⟨meets rfl rfl rfl, meets rfl rfl rfl, meets rfl rfl rfl, ⟨_, _, rfl⟩, fun d => ⟨meets rfl rfl rfl, rfl, by
    cases d <;> decide⟩, meets rfl rfl rfl, by decide, ⟨meets rfl rfl rfl, rfl, 1, _, by decide, rfl, rfl, by decide⟩,
    meets rfl rfl rfl, fun e f he hn _ => ?_⟩
  match e, hn with
  | 1, _ => cases he; exact ⟨rfl, by intro j i h; cases h⟩
  | 2, _ | 3, _ | 4, _ | 5, _ | 6, _ | 7, _ => cases he
  | _ + 8, _ => cases he

/-- A fragment that ends all its lanes. -/
theorem test_meets_Exits : Meets base { guard := true, noRegion := true } ∧ (ctx base).f.stack = [] ∧
    (ctx base).st.handler = none ∧
    (ctx base).w.live &&& ~~~((ctx base).st.exited ||| (ctx base).partLive) = 0 := ⟨meets rfl rfl rfl, rfl, rfl, by decide⟩

/-- Under a guard that passes lane 0 alone, EXIT leaves live lanes. -/
theorem test_meets_Exits_left : let s := onCtl (fun k => { k with mode := BitVec.ofNat 17 0x80 }) splitting
    (ctx s).partLive = 1 ∧ Meets s { guard := true, noRegion := true } ∧
    (ctx s).f.mask &&& ((ctx s).w.live &&& ~~~((ctx s).st.exited ||| (ctx s).partLive)) ≠ 0 :=
  ⟨by decide, meets rfl rfl (by decide), by decide⟩

/-- A decoupled wave: fragment 0 of each slice, the address slice's with three registers of its own. -/
def decoupled : State := onWave (fun w => { w with
  a := some (newStream here 0xFFFFFFFF 32 32 4 0 (List.replicate 16 7)) }) base
def ra : FragRef := { r0 with slice := .a }
/-- The control queue holds one filled entry. -/
def queued : State := onWave (fun w => { w with cq := { entries := [⟨0, .filled Vec.zero, 0⟩], next := 1 } }) decoupled
def meeting (r : FragRef) (p : Option Park) : State := State.by (onWave (fun w => { w with
  a := w.a.map fun st => { st with frags := st.frags.modify 0 (·.map fun f => { f with park := p }) } }) decoupled) r

theorem test_meets_ControlQueue : Meets base {} ∧ (ctx base).w.decoupled = false ∧
    (let c := ctx decoupled
     decoupled.Issues c ∧ c.w.decoupled = true ∧ c.inA = false ∧ c.predOk 7 = true ∧
     c.Passes { guard := true, regs := [.p 7] } ∧ (∃ c1 ids, c.reserve .cq 1 = .ok c1 ids) ∧
     c.srcOk true { spec := .s 3, et := some c.et } = true ∧ c.constBad (.s 3) = false) ∧
    (let s := State.by queued ra
     let c := ctx s ra
     s.Issues c ∧ c.inA = true ∧ c.Passes { regs := specRegs (.s 31) 1 } ∧ (∃ c1 v, c.pop .cq = .got c1 v) ∧
     c.uniOk 31 = true ∧ c.predOk 3 = true) ∧
    (let c := ctx decoupled
     c.st.live.length ≤ 1 ∧ (c.w.stream .a).ended = false ∧ (c.w.stream .a).atMeet = none) ∧
    (let s := meeting r0 (some .meet)
     s.Issues (ctx s) ∧ ((ctx s).w.stream .a).atMeet.isSome = true) ∧
    (let s := onWave (fun w => { w with a := w.a.map fun st => { st with ended := true } }) decoupled
     s.Issues (ctx s) ∧ ((ctx s).w.stream .a).ended = true) :=
  ⟨meets rfl rfl rfl, rfl, ⟨issues _ _ rfl rfl, rfl, rfl, rfl, passes (by decide), ⟨_, _, rfl⟩, rfl, rfl⟩,
    ⟨issues _ _ rfl rfl, rfl, passes (by decide), ⟨_, _, rfl⟩, rfl, rfl⟩, ⟨by decide, rfl, rfl⟩,
    ⟨issues _ _ rfl rfl, rfl⟩, issues _ _ rfl rfl, rfl⟩

/-- The most that one GROW takes, and the least that SHRINK takes; FP at the ends of its range. -/
theorem test_meets_RegistersAndFrames :
    Meets base { illegal := (ctx base).inA, operand := !growCount 96 } ∧ (ctx base).w.vcount + 96 ≤ (ctx base).w.vmax ∧
    96 ≤ (ctx base).s.freeRegs (ctx base).w.core ∧ (∀ w ∈ (ctx base).fellows, w.growing = true → (ctx base).w.age ≤ w.age) ∧
    (let s := onWave (fun w => { w with vcount := 40 }) base
     Meets s { illegal := (ctx s).inA, operand := !growCount 8 || (ctx s).w.vcount < (ctx s).w.vmin + 8
               regs := (List.range 8).map fun i => .v (32 + i) }) ∧
    (∀ n ∈ [512, 528], let s := setS 4 (BitVec.ofNat 32 n) base
      s.Issues (ctx s) ∧ (ctx s).uniOrZero (.s 4) = true ∧ ((ctx s).uval (.s 4)).toNat = n) ∧
    (let s := setS 4 512 base
     Meets s { operand := !(ctx s).uniOrZero (.s 4) || ((ctx s).uval (.s 4)).toNat % 16 != 0, regs := specRegs (.s 4) 1 } ∧
     (ctx s).st.fp + ((ctx s).uval (.s 4)).toNat ≤ (ctx s).w.slim ∧ (ctx s).st.fp < ((ctx s).uval (.s 4)).toNat) ∧
    (let s := setS 4 528 (onStream (fun st => { st with fp := 528 }) base)
     Meets s { operand := !(ctx s).uniOrZero (.s 4) || ((ctx s).uval (.s 4)).toNat % 16 != 0, regs := specRegs (.s 4) 1 } ∧
     (ctx s).w.slim < (ctx s).st.fp + ((ctx s).uval (.s 4)).toNat ∧ ((ctx s).uval (.s 4)).toNat ≤ (ctx s).st.fp) :=
  ⟨meets rfl rfl rfl, by decide, by decide, by decide, meets rfl rfl (by decide), by
    intro n hn
    simp only [List.mem_cons, List.not_mem_nil, or_false] at hn
    rcases hn with rfl | rfl <;> exact ⟨issues _ _ rfl rfl, rfl, rfl⟩,
    ⟨meets rfl rfl (by decide), by decide, by decide⟩, meets rfl rfl (by decide), by decide, by decide⟩

/-- The region that IDEM opens. -/
theorem test_meets_SequenceAndRegions : Meets base {} ∧ (ctx base).st.region = none ∧
    Meets (State.by (after .idem base)) {} ∧ (ctx (State.by (after .idem base))).st.region.isSome = true :=
  ⟨meets rfl rfl rfl, rfl, meets rfl rfl (by decide), by decide⟩

/-- R108, R113, R114: counting in a PMODE window of two, and the passes and the end of a loop. -/
theorem test_sequence :
    let s := onCtl (fun k => { k with mode := 5, restore := 1, count := 2 }) base
    let t := after .nop s
    (frag0 t).ctl.count = 1 ∧ (frag0 t).ctl.mode = 5 ∧ (frag0 (after .nop (State.by t))).ctl.mode = 1 ∧
    (frag0 t).pc = here + 4 := by decide

theorem test_loop_end :
    let s := onCtl (fun k => { k with loops := [⟨2, here - 8, here⟩, ⟨1, here - 16, here⟩] }) base
    let t := after .nop s
    (frag0 t).pc = here - 8 ∧ (frag0 t).ctl.loops.length = 2 ∧
    (frag0 (after .nop (onCtl (fun k => { k with loops := [⟨1, here - 8, here⟩, ⟨1, here - 16, here⟩] }) base))).ctl.loops =
      [] := by decide

/-- R98, R155: a backward branch; CALL and RET. -/
theorem test_transfers : (frag0 (after (.bra 0xFFFFFF) base)).pc = here - 4 ∧
    (frag0 (after (.call 2) base)).stack = [.call (here + 4)] ∧ (frag0 (after .ret calling)).pc = 4 ∧
    (frag0 (after (.jmpr (.s 4)) calling)).pc = 8 := by decide

/-- R38, R156: the two sides of a split. -/
theorem test_split : (frag0 (after (.split 1 4 8) splitting)).mask = 0xFFFFFFFE ∧
    (((after (.split 1 4 8) splitting).wave 0).c.frag 1).map (fun f => (f.pc, f.mask)) = some (here + 16, 1) := by decide

/-- R142, R153: a uniform compare sets CC and its predicate; VBAL reads it back. -/
theorem test_compare :
    let t := after (.icmp 2 2 (.ic 16) (.ic 0)) (under 1 base)
    (frag0 t).ctl.cc = true ∧ sreg (after (.vbal (.s 4) (.p 2)) (State.by t)) 4 = 0xFFFFFFFF ∧
    (frag0 (after (.icmp 2 2 (.ic 16) (.ic 0)) (under 2 base))).ctl.cc = false := by decide

/-- R90 to R92, R154: the sum of the lane numbers, their exclusive scan, and a quad's. -/
theorem test_reductions :
    let s := under 1 (setV 2 (BitVec.ofNat 32) base)
    sreg (after (.redw (.s 4) (.v 2) 0) s) 4 = 496 ∧ vreg (after (.scanw (.v 1) (.v 2) 1 0) s) 1 4 = 6 ∧
    vreg (after (.qred (.v 1) (.v 2) 0) s) 1 5 = 22 := by decide

/-- R146: the manual's example. -/
theorem test_tidx :
    let s := (setV 2 (fun l => if l = 0 then 100 else 500) base).updContext 96 0 fun k => { k with
      shapes := k.shapes.set 3 { e := [12, 5, 7], m := [0xAAAAAAAB, 0xCCCCCCCD], sh := [3, 2], ndim := 3 } }
    let t := after (.tidx (.v 10) (.v 2) 3) s
    (vreg t 10 0, vreg t 11 0, vreg t 12 0) = (4, 3, 1) ∧ (vreg t 10 1, vreg t 11 1, vreg t 12 1) = (8, 1, 8) := by decide

/-! Traps, timers and special registers. -/

/-- The context has a handler entry; TVEC is `here` plus 64. -/
def handled : State := base.updContext 96 0 fun k => { k with tvecLo := loWord (here + 64), tvecHi := hiWord (here + 64) }
def trapped : State := State.by ((ctx handled).takeTrap { cls := .illegalOp })

theorem test_meets_TrapOrder : (∀ l ∈ (ctx base).w.loads, l.slice = (ctx base).r.slice →
    Machine.meets l.writes ((ctx base).named {}) = false) ∧ Machine.meets (ctx base).owed ((ctx base).named {}) = false ∧
    ∀ w ∈ (ctx base).f.windows, Machine.meets w.regs [] = false := by decide

/-- One load in flight: 16 signed bits for v31 in lane 31, from the top of the scratchpad. -/
def load0 : Load :=
  { id := 0, slice := .c, pc := here, issued := 0, dest := .vec 31, size := 2, signed := true, part := 0x80000000
    entry := 0, lanes := [⟨31, .scr 0, 65534, 65534⟩] }
def loading (s : State) : State := onWave (fun w => { w with loads := [load0], seq := 1 }) s

theorem test_meets_TrapEntry : handled.Issues (ctx handled) ∧ (ctx handled).tvec ≠ 0 ∧ (ctx handled).st.handler = none ∧
    Unhindered (ctx handled) ∧ 24 ≤ (ctx handled).st.regs.s.length ∧
    (let s := loading handled
     s.Issues (ctx s) ∧ (ctx s).tvec ≠ 0 ∧ (ctx s).st.handler = none ∧ ¬ Unhindered (ctx s)) :=
  ⟨issues _ _ rfl rfl, by decide, rfl, ⟨by decide, by decide, rfl⟩, by decide, issues _ _ rfl rfl, by decide, rfl,
    fun h => h.1 load0 (List.mem_cons_self ..) rfl⟩

theorem test_meets_TrapEndsLaunch : base.Issues (ctx base) ∧ (ctx base).launchId < base.launches.length ∧
    (ctx base).launch.phase = .running ∧ (ctx base).block.shadow = false ∧ (ctx base).tvec = 0 ∧ (base.context? (ctx base).fn (ctx base).asid).isSome = true ∧
    trapped.Issues (ctx trapped) ∧ (ctx trapped).launch.phase = .running ∧ (ctx trapped).st.handler.isSome = true :=
  ⟨base_issues, by decide, rfl, rfl, rfl, rfl, issues _ _ rfl (by decide), by decide, by decide⟩

/-- The launch of `base` has been ended by a trap at cycle 0, which has or has not settled. -/
def dying (settled : Bool) : State := { base.updLaunch 0 fun l => { l with
    phase := .ending, ending := { trap := some (0, 0, { kind := 6 }, true) } } with cycle := if settled then 128 else 127 }

theorem test_meets_TrapEndsLaunch_end : ∀ b : Bool, 0 < (dying b).launches.length ∧ ((dying b).launch 0).phase = .ending ∧
    ((dying b).launch 0).ending.trap = some (0, 0, { kind := 6 }, true) ∧ (0 + Config.settle ≤ (dying b).cycle ↔ b = true) ∧
    ((dying b).launch 0).ending.stopped = false ∧ (∀ k ∈ (dying b).cores, k.copies = []) ∧
    ((dying b).context? ((dying b).launch 0).fn ((dying b).launch 0).asid).isSome = true := by
  intro b; cases b <;> decide +kernel

theorem test_meets_TrapReturn :
    (let s := base
     Meets s { regs := (List.range 8).map fun k => .s (16 + k) } ∧ (ctx s).st.handler = none) ∧
    ∀ v : Word, v = 2 ∨ v = 4 →
      (let s := setS 16 v trapped
       Meets s { regs := (List.range 8).map fun k => .s (16 + k) } ∧
       (∃ h, (ctx s).st.handler = some h ∧ h.entry = (ctx s).r.entry) ∧ 24 ≤ (ctx s).st.regs.s.length ∧
       ((ctx s).st.regs.uni64 16).toNat % 4 = v.toNat % 4) := by
  refine ⟨⟨meets rfl rfl rfl, rfl⟩, ?_⟩
  rintro v (rfl | rfl) <;> exact ⟨meets rfl (by decide) (by decide), ⟨_, rfl, rfl⟩, by decide, by decide⟩

theorem test_meets_TrapInstructions : Meets handled {} ∧ (ctx handled).tvec ≠ 0 ∧ (ctx handled).st.handler = none ∧
    Unhindered (ctx handled) ∧ Meets base {} ∧ (ctx base).tvec = 0 :=
  ⟨meets rfl rfl rfl, by decide, rfl, ⟨by decide, by decide, rfl⟩, meets rfl rfl rfl, rfl⟩

/-- R332, R333: what a trap puts into s16 to s19, and TRET's return with the program's own registers. -/
theorem test_trap :
    let t := after (.trap 0x42) (setS 17 9 handled)
    sreg t 16 = loWord (here + 4) ∧ sreg t 19 = 0x42 ∧ (frag0 t).pc = here + 64 ∧
    (let u := after .tret (State.by t)
     sreg u 17 = 9 ∧ (frag0 u).pc = here + 4 ∧ (u.wave 0).c.handler = none) := by decide

/-- The instruction at hand has issued with the registers as they are, and its settle window is over. -/
def held (h : Hold) : State → State := onStream fun st => { st with
  frags := st.frags.modify 0 (·.map fun f => { f with hold := some { h with settled := true, regs := st.regs } }) }
def hold0 : Hold := { issued := 0, seq := 0, regs := {} }

/-- Timer 3 has fired and timer 2 is not armed; timer 1 is set for now, for later and for never. -/
def timed (v : Word) : State := setS 4 v (base.updContext 96 0 fun k => { k with
  timers := k.timers.set 3 { fired := true }, vtime := 5 * Config.unitsPerTick })

theorem test_meets_Timers : Meets base { operand := !(ctx base).uniRegOk (.s 62) 2 2, regs := specRegs (.s 62) 2 } ∧
    2 ≤ (ctx base).priv ∧
    (let s := base.updLaunch 0 fun l => { l with priv := 1 }
     Meets s { operand := !(ctx s).uniRegOk (.s 62) 2 2, regs := specRegs (.s 62) 2 } ∧ (ctx s).priv < 2) ∧
    (∀ v : Word, v = 3 ∨ v = 2 → (timed v).Issues (ctx (timed v)) ∧ 3 ≥ ((ctx (timed v)).uval (.s 4)).toNat ∧
      ((ctx (timed v)).context.timers.getD v.toNat {}).fired = (v == 3) ∧
      ((ctx (timed v)).context.timers.getD v.toNat {}).armed = false ∧ (ctx (timed v)).f.park = none) ∧
    (∀ d : Word, d = 0 ∨ d = 1 ∨ d = 0xFFFFFFFF →
      (let s := held hold0 (setS 6 d (timed 5))
       s.Issues (ctx s) ∧ (∃ h, (ctx s).Settled h) ∧
       (s.context? (ctx s).fn (ctx s).asid).isSome = true ∧ ((ctx s).uval (.s 4)).toNat % 4 < (ctx s).context.timers.length ∧
       (((ctx s).uval64 (.s 6)).toNat ≤ (ctx s).context.vns ↔ d ≠ 0xFFFFFFFF))) := by
  refine ⟨meets rfl rfl (by decide), by decide, ⟨meets rfl rfl (by decide), by decide⟩, ?_, ?_⟩
  · rintro v (rfl | rfl) <;> exact ⟨issues _ _ rfl rfl, by decide, by decide, by decide, rfl⟩
  · rintro d (rfl | rfl | rfl) <;> exact ⟨issues _ _ rfl rfl, ⟨_, rfl, rfl⟩, rfl, by decide, by decide⟩

theorem test_meets_SpecialRegisters :
    (let s := setS 6 31 base
     Meets s { operand := !(ctx s).uniRegOk (.s 62) 2 2 || !(ctx s).uniSrcOk (.s 6) || 31 < ((ctx s).uval (.s 6)).toNat,
               regs := specRegs (.s 62) 2 ++ specRegs (.s 6) 1 }) ∧
    (let c := ctx (setS 6 0x004 base)
     c.Passes { operand := !c.uniRegOk (.s 3) 1 1 || !c.uniSrcOk (.s 6), regs := specRegs (.s 3) 1 ++ specRegs (.s 6) 1 } ∧
     (sysReadPriv (c.uval (.s 6)).toNat).isSome = true) ∧
    (let c := ctx (setS 6 0x200 (base.updLaunch 0 fun l => { l with priv := 1 }))
     c.Passes { operand := !c.uniRegOk (.s 3) 1 1 || !c.uniSrcOk (.s 6), regs := specRegs (.s 3) 1 ++ specRegs (.s 6) 1 } ∧
     sysReadPriv (c.uval (.s 6)).toNat = some 2 ∧ c.priv < 2) ∧
    (let c := ctx (setS 6 0x7FF base)
     sysReadPriv (c.uval (.s 6)).toNat = none ∧ c.Passes { regs := specRegs (.s 3) 1 ++ specRegs (.s 6) 1 }) ∧
    ∀ x : Word × Word, x = (0, 1) ∨ x = (0, 16) ∨ x = (0, 17) ∨ x = (0x1A0, 5) ∨ x = (0x1A1, 0x1FFFFF) →
      (let s := held hold0 (setS 6 x.1 (setS 7 x.2 base))
       s.Issues (ctx s) ∧ (∃ h, (ctx s).Settled h) ∧
       ((ctx s).writeSys ((ctx s).uval (.s 6)).toNat ((ctx s).uval (.s 7))).isNone = decide (x = (0, 17)) ∧
       (s.context? (ctx s).fn (ctx s).asid).isSome = true ∧
       (x.1 = 0x1A1 → (pair (ctx s).context.tvecPend ((ctx s).uval (.s 7))).toNat < Config.addressTop)) := by
  refine ⟨meets rfl rfl (by decide), ⟨passes (by decide), by decide⟩, ⟨passes (by decide), by decide, by decide⟩,
    ⟨by decide, passes (by decide)⟩, ?_⟩
  rintro x (rfl | rfl | rfl | rfl | rfl)
  all_goals refine ⟨issues _ _ rfl rfl, ⟨_, rfl, rfl⟩, by decide, rfl, by decide⟩

theorem test_meets_StatusAndMarks : Meets base { operand := !(ctx base).uniRegOk (.s 63) 1 1, regs := specRegs (.s 63) 1 } ∧
    (ctx base).st.committing (ctx base).r.entry = false ∧
    Meets base { operand := !(ctx base).uniRegOk (.s 63) 1 1 || !(ctx base).uniRegOk (.s 4) 1 1,
                 regs := specRegs (.s 63) 1 ++ specRegs (.s 4) 1 } ∧
    (let s := held hold0 base
     s.Issues (ctx s) ∧ (∃ h, (ctx s).Settled h) ∧ (ctx s).launchId < s.launches.length ∧
     (ctx s).blockId < s.blocks.length) :=
  ⟨meets rfl rfl (by decide), rfl, meets rfl rfl (by decide), issues _ _ rfl rfl, ⟨_, rfl, rfl⟩, by decide, by decide⟩

/-! Memory. -/

def scanOkB (c : Ctx) (q : LaneAcc) (av : Nat → Dword) : Bool := match c.scan q av with
  | .ok _ => true
  | _ => false
def scanTrapB (c : Ctx) (q : LaneAcc) (av : Nat → Dword) : Bool := match c.scan q av with
  | .trap _ => true
  | _ => false

theorem scanOk {c : Ctx} {q : LaneAcc} {av : Nat → Dword} (h : scanOkB c q av = true) : ∃ xs, c.scan q av = .ok xs := by
  unfold scanOkB at h; cases hs : c.scan q av <;> simp_all
theorem scanTrap {c : Ctx} {q : LaneAcc} {av : Nat → Dword} (h : scanTrapB c q av = true) : ∃ t, c.scan q av = .trap t := by
  unfold scanTrapB at h; cases hs : c.scan q av <;> simp_all

/-- A load's checks pass and its lanes do, or one of them traps. -/
def loadB (bad : Bool) (c : Ctx) (f : AccForm) : Bool :=
  c.f.hold.isNone && passesB c (f.q.need c (c.loadXOk f.q.x f.q.regs) f.illegal (badEt c.et anyEt)) && f.q.hasA &&
    match c.readAll [f.q.aSrc] with
    | .ok c1 [av] => (match c1.loadEntries f.q with
      | .ok _ _ => if bad then scanTrapB c1 f.q av else scanOkB c1 f.q av
      | _ => false)
    | _ => false

theorem loads {bad : Bool} {c : Ctx} {f : AccForm} (h : loadB bad c f = true) : ∃ c1 c2 av ids,
    LoadRuns c f.q f.illegal c1 c2 av ids ∧
    if bad = true then ∃ t, c1.scan f.q av = .trap t else ∃ xs, c1.scan f.q av = .ok xs := by
  simp only [loadB, Bool.and_eq_true, Option.isNone_iff_eq_none] at h
  obtain ⟨⟨⟨h1, h2⟩, h3⟩, h4⟩ := h
  split at h4
  · next c1 av hr =>
    split at h4
    · next c2 ids he =>
      refine ⟨c1, c2, av, ids, ⟨h1, passes h2, by rw [if_pos h3]; exact hr, he⟩, ?_⟩
      cases bad with
      | true => exact scanTrap h4
      | false => exact scanOk h4
    · simp at h4
  · simp at h4

/-- A third page of 8 GiB, at 2^34, is host memory. -/
def mapped : State := base.devWrite 0xC010 (bytesOfNat 8 0x37)
/-- b0 names that page. -/
def hostBase : State := setS 25 4 mapped

theorem test_meets_LoadsIssue : base.Issues (ctx base) ∧
    ((loadForms (.v 30) (.v 4) 15 0 3).take 1 ++ (loadForms (.s 60) (.s 4) 0 0 0).take 4).all (loadB false (ctx base)) = true ∧
    ((loadForms (.s 8) (.s 6) 0 0 2).drop 4).all (loadB false (ctx hostBase)) = true ∧
    (loadForms (.s 8) (.ic 1) 0 1 2).all (fun f => loadB true (ctx base) f) = true ∧
    (let s := State.by (setS 4 1 decoupled) ra
     s.Issues (ctx s ra) ∧ (ctx s ra).inA = true ∧
     ((loadForms (.lq 3) (.ic 1) 0 0 1).take 3).all (loadB true (ctx s ra)) = true) :=
  ⟨base_issues, by decide +kernel, by decide +kernel, by decide +kernel, issues _ _ rfl rfl, rfl, by decide +kernel⟩

/-- An access whose lanes all pass brings in the lines of its words, or parks on one. -/
def stackB (miss : Bool) (c : Ctx) (q : LaneAcc) : Bool := match c.scan q (fun _ => 0) with
  | .ok xs => (match c.stack q (.ok xs) with
    | (_, .ok ys) => !miss && xs == ys
    | (_, .miss _) => miss
    | _ => false)
  | _ => false

theorem stackOk {miss : Bool} {c : Ctx} {q : LaneAcc} (h : stackB miss c q = true) : ∃ xs, c.scan q (fun _ => 0) = .ok xs ∧
    if miss then ∃ c1 va, c.stack q (.ok xs) = (c1, .miss va) else ∃ c1, c.stack q (.ok xs) = (c1, .ok xs) := by
  unfold stackB at h
  split at h
  · next xs hs =>
    refine ⟨xs, hs, ?_⟩
    split at h
    · next c1 ys hk => cases miss <;> simp at h; subst h; exact ⟨c1, hk⟩
    · next c1 va hk => subst h; exact ⟨c1, va, hk⟩
    · simp at h
  · simp at h

/-- A wave whose backing no table maps. -/
def unmapped : State := State.by State.reset.withWave

theorem test_meets_PrivateAccesses : (∀ m : Bool, let s := if m then unmapped else base
      s.Issues (ctx s) ∧ (ctx s).f.hold = none ∧ (∀ n ∈ [63, 64], let q := privAcc (.v 30) n 15 3 false
        (ctx s).Passes (q.need (ctx s) ((ctx s).loadXOk q.x q.regs) false (badEt (ctx s).et anyEt))) ∧
      stackB m (ctx s) (privAcc (.v 30) 63 15 3 false) = true ∧
      (∃ t, (ctx s).scan (privAcc (.v 30) 64 15 3 false) (fun _ => 0) = .trap t) ∧
      (∀ n ∈ [63, 64], ∃ c1 ws, StoreRuns (ctx s) (privAcc (.v 30) n 15 3 true) false c1 (fun _ => 0) ws ∧
        if n = 63 then ∃ xs, c1.scan (privAcc (.v 30) n 15 3 true) (fun _ => 0) = .ok xs ∧
          if m then ∃ cs va, c1.stack (privAcc (.v 30) n 15 3 true) (.ok xs) = (cs, .miss va)
          else ∃ cs, c1.stack (privAcc (.v 30) n 15 3 true) (.ok xs) = (cs, .ok xs)
        else ∃ t, c1.scan (privAcc (.v 30) n 15 3 true) (fun _ => 0) = .trap t)) ∧
    (∀ c1 : Ctx, c1.f.hold = none → c1.loadEntries (privAcc (.v 30) 63 15 3 false) = .ok c1 []) ∧
    ((ctx base).inA && isQueue (.v 30)) = false ∧ (ctx base).w.slim < (ctx base).st.fp + 511 + 2 := by
  refine ⟨fun m => ?_, fun c1 h => by simp [Ctx.loadEntries, privAcc, isQueue, h], rfl, by decide⟩
  have two : ∀ {P : BitVec 8 → Prop}, P 63 → P 64 → ∀ n ∈ [63, 64], P n := by
    intro P a b n hn
    simp only [List.mem_cons, List.not_mem_nil, or_false] at hn
    rcases hn with rfl | rfl <;> assumption
  cases m <;> exact ⟨issues _ _ rfl rfl, rfl, two (passes (by decide +kernel)) (passes (by decide +kernel)), by decide +kernel,
    scanTrap (by decide +kernel), two ⟨_, _, ⟨passes (by decide +kernel), ⟨rfl, rfl⟩⟩, stackOk (by decide +kernel)⟩
      ⟨_, _, ⟨passes (by decide +kernel), ⟨rfl, rfl⟩⟩, scanTrap (by decide +kernel)⟩⟩

/-- A full stack cache, the line used longest ago changed or not. -/
def stacking (dirty : Bool) : State := onWave (fun w => { w with
  cache := (List.range 64).map fun i => { word := i, bytes := List.replicate 128 5, dirty := dirty && i == 63 } }) base

theorem test_meets_PrivateAccesses_cache :
    (ctx base).block.shadow = false ∧ ((ctx base).w.cache.find? (·.word == 9)) = none ∧ (ctx base).w.cache.length < 64 ∧
    (∃ pa, (ctx base).s.translate (some (ctx base).w.core) (ctx base).fn (ctx base).asid { write := false, priv := 2 }
      ((ctx base).backAt 9) = .ok pa ∧ ∀ i < 4, (ctx base).s.poisoned .dev (pa + 32 * i) = false) ∧
    (∀ d : Bool, let c := ctx (stacking d)
      c.block.shadow = false ∧ (∃ k, c.w.cache.find? (·.word == 63) = some k) ∧ c.w.cache.find? (·.word == 64) = none ∧
      c.w.cache.length = 64 ∧ ∃ k, c.w.cache.reverse.find? (fun k => !c.w.pinned k) = some k ∧ k.dirty = d ∧
        ∃ pk, c.s.translate (some c.w.core) c.fn c.asid { write := true, priv := 2 } (c.backAt k.word) = .ok pk) ∧
    (let w := (ctx (stacking true)).w
     w.privPend = [] ∧ ∃ k, w.cache.find? (·.word == privWord (31 * 2 ^ 18 + 255)) = some k ∧ k.bytes.length = 128) := by
  refine ⟨rfl, rfl, by decide, ⟨0x100480, by decide +kernel, by decide +kernel⟩, fun d => ?_, rfl,
    { word := 63, bytes := List.replicate 128 5, dirty := true }, by decide +kernel, by decide +kernel⟩
  cases d <;> exact ⟨rfl, Option.isSome_iff_exists.1 (by decide +kernel), by decide +kernel, by decide +kernel, _, rfl,
    by decide +kernel, 0x101F80, by decide +kernel⟩

/-- A load whose lanes all pass reads a poisoned sector of a line that it brings in, or reads none. -/
def markedB (c : Ctx) (q : LaneAcc) : Bool := match c.scan q (fun _ => 0) with
  | .ok xs => (match c.stack q (.ok xs) with
    | (c1, .ok _) => (match c1.loadEntries q with
      | .ok c2 _ => xs.any fun y => (List.range q.size).any fun k => ((c2.fillTlbs xs).watched false xs).w.privMarked (y.addr + k)
      | _ => false)
    | _ => false)
  | _ => false

theorem test_meets_PrivateAccesses_marked :
    markedB (ctx base) (privAcc (.v 30) 63 15 3 false) = false ∧
    markedB (ctx (base.setPoison { place := .dev, idx := 0x81F8 } true)) (privAcc (.v 30) 63 15 3 false) = true := by
  decide +kernel

theorem test_meets_ReliabilityEvents_stack : 0 < (stacking true).waves.length ∧
    ∃ k ∈ ((stacking true).wave 0).cache, k.word = 5 := by
  decide +kernel

/-- R173: a private load brings in the two lines of its words. -/
theorem test_stack_cache : ((after (.ldp (.v 30) 63 0 3) base).wave 0).cache.map (·.word) = [127, 126] := by decide +kernel

def flying : State := loading (base.writeBytes (.scr 0) 65534 [0x01, 0x80])
/-- A second load, after the first: of the same bytes, or of others behind a MEET. -/
def second (overlap : Bool) : State := onWave (fun w => { w with
  loads := w.loads ++ [{ load0 with id := 1, fence := if overlap then 0 else 1
                                    lanes := if overlap then load0.lanes else [⟨31, .scr 0, 0, 0⟩] }] }) flying

theorem test_meets_LoadReturns : 0 < flying.waves.length ∧
    (∃ ld, (flying.wave 0).loads.find? (·.id == 0) = some ld ∧ ld.dest = .vec 31 ∧
      31 + regsOf ld.size ≤ ((flying.wave 0).stream ld.slice).regs.v.length ∧
      (∀ x ∈ (flying.wave 0).loads, x.id < ld.id → ld.fence ≤ x.id ∧ x.overlaps ld = false) ∧
      ∀ x ∈ ld.lanes, (flying.loadBytes 0 (some ld.id) x.place x.addr ld.size).2 = false) ∧
    ∀ o : Bool, ∃ ld, ((second o).wave 0).loads.find? (·.id == 1) = some ld ∧ load0 ∈ ((second o).wave 0).loads ∧
      load0.id < ld.id ∧ (load0.overlaps ld = o) ∧ (load0.id < ld.fence ↔ o = false) := by
  refine ⟨by decide +kernel, ⟨_, rfl, rfl, by decide +kernel, by decide +kernel, by decide +kernel⟩, ?_⟩
  intro o; cases o <;> exact ⟨_, rfl, by decide +kernel, by decide, by decide, by decide⟩

/-- R243: the datum that this load returns is extended. -/
theorem test_load_return : vreg (after (.loadReturn 0 0) flying) 31 31 = 0xFFFF8001 ∧
    vreg (after (.loadReturn 0 0) flying) 31 30 = 0 := by decide +kernel

/-- A store's checks pass and its lanes do, or one of them traps; `n` lanes store. -/
def storeB (bad : Bool) (n : Nat) (c : Ctx) (f : AccForm) : Bool :=
  passesB c { f.q.need c (c.storeXOk f.q) f.illegal false with noRegion := false } && f.q.hasA &&
    match c.readAll (f.q.aSrc :: f.q.words) with
    | .ok c1 (av :: _) => (match c1.scan f.q av with
      | .ok xs => !bad && xs.length == n
      | .trap _ => bad
      | _ => false)
    | _ => false

/-- A WWB that 64 stores have filled, none of them settled. -/
def fullW : State := onWave (fun w => { w with seq := 64, pend := (List.range 64).map fun i =>
  { seq := i, issued := 0, slice := .c, key := ⟨.scr 0, i + 1⟩, va := 0, bytes := [(0, 7)] } }) base

theorem test_meets_StoresIssue : base.Issues (ctx base) ∧ fullW.Issues (ctx fullW) ∧
    ((storeForms (.s 60) (.s 4) 15 0 3).take 1).all (storeB false 1 (ctx fullW)) = true ∧
    ((ctx fullW).out.store 0 .c (ctx fullW).st.region.isSome [⟨0, .scr 0, 0, 0, List.replicate 8 0⟩]).isNone = true ∧
    ((storeForms (.s 60) (.s 4) 15 0 3).eraseIdx 4).all (fun f => match f.q.space with
      | .typed _ => storeB true 0 (ctx base) f
      | _ => storeB false 1 (ctx base) f) = true ∧
    ((storeForms (.v 30) (.v 4) 15 1 3).drop 1).head?.map (storeB false 32 (ctx base)) = some true ∧
    ((storeForms (.s 8) (.s 6) 0 0 2).drop 4).head?.map (storeB false 1 (ctx hostBase)) = some true ∧
    (storeForms (.s 8) (.ic 1) 0 0 2).dropLast.all (storeB true 0 (ctx base)) = true :=
  ⟨base_issues, issues _ _ rfl rfl, by decide +kernel, by decide +kernel, by decide +kernel, by decide +kernel, by decide +kernel,
    by decide +kernel⟩

/-- Two lanes of one store name the same byte. -/
def twice : List LaneStore := [⟨0, .scr 0, 30, 30, [1, 2, 3, 4]⟩, ⟨1, .scr 0, 32, 32, [5, 6, 7, 8]⟩]

theorem test_meets_StoreVisible : 0 < base.waves.length ∧
    base.roomFor 0 ((twice.flatMap LaneStore.parts).map (·.1)).eraseDups (Config.wwbSectors + 1) = some base ∧
    ∃ t, base.store 0 .c false twice = some t := ⟨by decide +kernel, by decide +kernel, Option.isSome_iff_exists.1 (by decide +kernel)⟩

/-- R206, R207: the wave reads what the last lane stored, in both sectors. -/
theorem test_store_visible : ((base.store 0 .c false twice).map fun t =>
    (List.range 6).map fun k => (t.loadByte 0 none (.scr 0) (30 + k)).1) = some [1, 2, 5, 6, 7, 8] := by decide +kernel

/-- R245 to R247: a store that misses its alignment in one lane traps and stores nothing. -/
theorem test_store_traps : ((after (.sts (.v 28) (.v 4) 0 0 2) (setV 4 (fun l => if l = 31 then 2 else 0) base)).wave 0).pend =
    [] ∧ ((after (.sts (.v 28) (.v 4) 0 0 2) base).wave 0).pend.length = 32 := by decide +kernel

/-- An instruction held with every lane's address, and the data of a strong store; b0 names host memory or not. -/
def strong (host : Bool) (o : Nat) : State := held { hold0 with rows := List.replicate 32 0, data := List.replicate 256 0 }
  (under (if o = 8 then 5 else 4) (if host then hostBase else base))

/-- An atomic of each operation, at the widest width it has. -/
theorem test_meets_StrongAndAtomic : (∀ o < 9,
      (strong false o).Issues (ctx (strong false o)) ∧ (∃ h, (ctx (strong false o)).Settled h ∧ h.rows.getD 31 0 = 0) ∧
      (∃ xs, (ctx (strong false o)).scan (atomicAcc (ctx (strong false o)) (.s 8) (.s 4) 0 o (.scratch 0)) (fun _ => 0) = .ok xs) ∧
      (∃ xs, (ctx (strong false o)).scan (atomicAcc (ctx (strong false o)) (.s 8) (.s 4) 0 o (.dev 0)) (fun _ => 0) = .ok xs) ∧
      ∃ xs, (ctx (strong true o)).scan (atomicAcc (ctx (strong true o)) (.s 8) (.s 4) 0 o (.host 0)) (fun _ => 0) = .ok xs) ∧
    (∀ b, ∃ xs, (ctx (strong false 0)).scan (strongAcc (.s 8) (.s 4) 0 0 3 b) (fun _ => 0) = .ok xs) ∧
    base.poisoned .dev 0 = false ∧ Meets base {} ∧ (ctx base).f.hold = none ∧
    (∀ l ∈ (ctx base).w.loads, l.slice ≠ (ctx base).r.slice) ∧ (ctx base).owed = [] := by
  refine ⟨fun o ho => ⟨issues _ _ rfl rfl, ⟨_, ⟨rfl, rfl⟩, rfl⟩, ?_, ?_, ?_⟩, fun b => ?_, rfl, meets rfl rfl rfl, rfl, by decide +kernel, by decide⟩
  · exact scanOk ((by decide +kernel : ∀ o < 9, scanOkB (ctx (strong false o)) (atomicAcc (ctx (strong false o)) (.s 8) (.s 4) 0 o (.scratch 0)) (fun _ => 0) = true) o ho)
  · exact scanOk ((by decide +kernel : ∀ o < 9, scanOkB (ctx (strong false o)) (atomicAcc (ctx (strong false o)) (.s 8) (.s 4) 0 o (.dev 0)) (fun _ => 0) = true) o ho)
  · exact scanOk ((by decide +kernel : ∀ o < 9, scanOkB (ctx (strong true o)) (atomicAcc (ctx (strong true o)) (.s 8) (.s 4) 0 o (.host 0)) (fun _ => 0) = true) o ho)
  · cases b <;> exact scanOk (by decide +kernel)

/-- The bytes that a strong access reads are sound, or poisoned, and no egress queue of the wave holds one of them. -/
theorem test_meets_StrongAndAtomic_marks : ∀ bad : Bool,
    let s := (strong false 0).setPoison { place := .dev, idx := 0 } bad
    let c := ctx s
    s.Issues c ∧ (∃ h, c.Settled h ∧ h.post = false) ∧ (∃ h, (ctx (held { hold0 with post := true } base)).Settled h ∧ h.post = true) ∧
    (∃ xs, c.scan (strongAcc (.s 8) (.s 4) 0 0 3 false) (fun _ => 0) = .ok xs) ∧
    c.s.egressMeets c.r.wave 0 8 = false ∧
    (c.s.strongReads c.blockId c.w.core c.sc .dev 0 8).1.strongMarked c.blockId c.w.core c.sc .dev 0 = bad ∧
    (c.strongBad (c.s.strongReads c.blockId c.w.core c.sc .dev 0 8).1 [⟨0, .dev, 0, 0⟩]).isSome = bad ∧
    (c.inA && isQueue (.s 8)) = false := by
  intro bad
  cases bad <;> exact ⟨issues _ _ rfl rfl, ⟨_, ⟨rfl, rfl⟩, rfl⟩, ⟨_, ⟨rfl, rfl⟩, rfl⟩, scanOk (by decide +kernel),
    by decide +kernel, by decide +kernel, by decide +kernel, rfl⟩

/-- R255: lanes that name one word take their turns in order, and the last leaves the sum. -/
theorem test_atomic_order :
    let s := held { hold0 with rows := List.replicate 32 64 } (setV 8 (fun _ => 3) (under 2 base))
    let t := after (.ats (.v 8) (.v 4) 0 0) s
    vreg t 8 0 = 0 ∧ vreg t 8 31 = 93 ∧ (t.readBytes (.scr 0) 64 4) = [96, 0, 0, 0] := by decide +kernel


/-- The node 5 has answered what lane 0 asks it at offset 8. -/
def answered (a : PeerAnswer) (x : PeerAsk) : State := held { hold0 with rows := [pair 8 5], reqs := [0] }
  { under 2 base with peers := [{ id := 0, fn := 96, node := 5, off := 8, ask := x, since := 0, st := .answered a }] }

theorem test_meets_PeerAndPrefetch :
    (let s := answered (.data [1, 2, 3, 4]) (.load 4)
     let c := ctx s
     s.Issues c ∧ (∃ h, c.Settled h ∧ c.f.hold = some h ∧ h.rows = [pair 8 5] ∧ h.reqs = [0]) ∧
     scanOkB c { x := .s 8, a := .s 4, size := 4, space := .peer, regs := 1, la := 0 } (fun l => [pair 8 5].getD l 0) = true ∧
     ∃ t reqs, replay c (fun _ => .load 4) (replayOrder [⟨0, .peer 5, 8, 8⟩]) c.s [0] 40 = .done t reqs ∧
       peerBad t (replayOrder [⟨0, .peer 5, 8, 8⟩]) reqs = none) ∧
    (let c := ctx (answered .poisoned (.load 4))
     (c.inA && isQueue (.s 8)) = false ∧
     ∃ t reqs m, replay c (fun _ => .load 4) (replayOrder [⟨0, .peer 5, 8, 8⟩]) c.s [0] 40 = .done t reqs ∧
       peerBad t (replayOrder [⟨0, .peer 5, 8, 8⟩]) reqs = some m) ∧
    (let s := setS 4 0x100 base
     let c := ctx s
     Meets s { operand := !c.srcOk false { spec := .s 6, raw := true }, guard := true, regs := specRegs (.s 6) 1 } ∧
     (∃ c1 av, c.readAll [{ spec := .s 6, raw := true }] = .ok c1 [av] ∧ c1.coreState.copies = []) ∧
     c.Passes { operand := !c.uniRegOk (.s 4) 2 2, regs := specRegs (.s 4) 2 } ∧ (c.uval64 (.s 4)).toNat % 16 = 0 ∧
     ∃ xs : List LaneAddr, ((List.range 3).map fun i => c.virtOut false false 16 i ((c.uval64 (.s 4)).toNat + 16 * i)) =
       xs.map LaneOut.ok ∧ ∀ y ∈ xs, (c.s.loadBytes c.r.wave none y.place y.addr 16).2 = false) := by
  refine ⟨⟨issues _ _ rfl rfl, ⟨_, ⟨rfl, rfl⟩, rfl, rfl, rfl⟩, by decide, _, _, rfl, rfl⟩,
    ⟨rfl, _, _, _, rfl, rfl⟩, meets rfl rfl (by decide), ⟨_, _, rfl, rfl⟩, passes (by decide), by decide,
    [⟨0, .dev, 256, 256⟩, ⟨1, .dev, 272, 272⟩, ⟨2, .dev, 288, 288⟩], rfl, by decide⟩

/-! Commits, barriers, copies, units and messages. -/

theorem test_meets_HeldIssue :
    (let s := setS 6 7 base
     s.Issues (ctx s) ∧ (ctx s).f.hold = none ∧
     ∀ f ∈ heldForms (ctx s) (.s 6) (.s 4) (.s 8) 0 3, passesB (ctx s) f.2 = true) ∧
    (∀ f ∈ heldForms (ctx base) (.s 6) (.s 4) (.s 8) 0 5, f.1 = .cmt 0 5 → passesB (ctx base) f.2 = true) := by
  refine ⟨⟨issues _ _ rfl rfl, rfl, by decide⟩, by decide⟩

/-- A wave with a settled sector at its own level, held at a commit. -/
def committing : State := held { hold0 with seq := 9 }
  (onWave (fun w => { w with seq := 9, wwb := [{ key := ⟨.scr 0, 0⟩, data := some { val := 7, by' := 3 } :: List.replicate 31 none }] }) base)

/-- The sector is of the window of node 1, a VF of this module whose window is empty. -/
def refusing : State := { held { hold0 with seq := 9 } (onWave (fun w => { w with seq := 9, wwb := [
    { key := ⟨.peer 1, 0⟩, data := some { val := 7, by' := 3 } :: List.replicate 31 none }] }) base) with
  functions := [{ fn := 3, cfg := 0x1801, clusLo := 1, vfq := 0x100, asids := 0x10000 }] }

theorem test_meets_CommitAndAcquire :
    (let c := ctx committing
     committing.Issues c ∧ (∃ h, c.Settled h ∧ h.arrived = false ∧ h.seq = 9) ∧ c.allHelpers = false ∧
     (∀ v : Nat, v = 1 ∨ v = 5 → c.s.commitReady c.r.wave v 9 = true ∧
       (c.out.commit c.r.wave v 9 false).1.answers (c.out.commit c.r.wave v 9 false).2 = .all) ∧ ∀ p ∈ c.w.pend, 9 ≤ p.seq) ∧
    (let c := ctx refusing
     refusing.Issues c ∧ (∃ h, c.Settled h ∧ h.arrived = false ∧ h.seq = 9) ∧ c.allHelpers = false ∧
     c.s.commitReady c.r.wave 5 9 = true ∧
     (c.out.commit c.r.wave 5 9 false).1.answers (c.out.commit c.r.wave 5 9 false).2 = .refused 1) ∧
    (let s := onFrag (fun f => { f with mask := 0 }) (held hold0 base)
     s.Issues (ctx s) ∧ (∃ h, (ctx s).Settled h) ∧ (ctx s).allHelpers = true) := by
  refine ⟨⟨issues _ _ rfl rfl, ⟨_, ⟨rfl, rfl⟩, rfl, rfl⟩, by decide, ?_, by decide⟩,
    ⟨issues _ _ rfl rfl, ⟨_, ⟨rfl, rfl⟩, rfl, rfl⟩, by decide, by decide, by rfl⟩,
    issues _ _ rfl rfl, ⟨_, rfl, rfl⟩, by decide⟩
  rintro v (rfl | rfl) <;> exact ⟨by decide, rfl⟩

/-- R208: the sector leaves the WWB for the block's buffer, and at the device's level for the device. -/
theorem test_commit : (committing.wave 0).wwb.length = 1 ∧ ((after (.cmt 0 1) committing).wave 0).wwb.length = 0 ∧
    ((after (.cmt 0 1) committing).core 0).bwb.length = 1 := by decide

/-- A block with a cell at 32. -/
def celled (k : Cell) (s : State) : State := s.updBlock 0 fun b => b.setCell { k with off := 32 }

theorem test_meets_ThreadArrival : ∀ k : Cell, k = {off := 0} ∨ k = { off := 0, exp := 3, cnt := 2 } ∨
    k = { off := 0, exp := 0xFFFFFFFF, cnt := 0 } →
    (let s := celled k base
     0 < s.blocks.length ∧ (s.block 0).cell? 32 = some { k with off := 32 } ∧ k.arrival = false) := by
  rintro k (rfl | rfl | rfl) <;> exact ⟨by decide, rfl, rfl⟩

/-- R175: the last of three arrivals flips the phase. -/
theorem test_arrival : (after (.barv (.s 6) (.s 4) 0) (held hold0 (setS 6 3 (setS 4 32
    (celled { off := 0, exp := 3, cnt := 2 } base))))).blocks.map (fun b => (b.cell? 32).map fun k => (k.ph, k.cnt)) =
      [some (true, 0)] := by decide

def atCell (k : Option Cell) (v : Word) : State := held hold0 (setS 6 v (setS 4 32 (match k with
  | some k => celled k base
  | none => base)))

theorem test_meets_Barriers :
    (∀ k : Option Cell, k = none ∨ k = some { off := 0 } →
      (let c := ctx (atCell k 1)
       (atCell k 1).Issues c ∧ (∃ h, c.Settled h) ∧ c.coreState.locked 0 c.blockId 32 47 true = false ∧
       (c.block.cell? 32 = none ∨ c.s.pkw c.blockId 32 = 0) ∧ c.cellOff (.s 4) = 32)) ∧
    (∀ e : Word, e = 1 ∨ e = 2 →
      (let c := ctx (atCell (some { off := 0, exp := e }) e)
       (atCell (some { off := 0, exp := e }) e).Issues c ∧ ∃ t, c.out.arriveThread c.blockId 32 (c.uval (.s 6)) false = .ok t ∧
         ∃ k, (t.block 0).cell? 32 = some k ∧ (k.ph = false ↔ e = 2) ∧ k.poi = false ∧ k.arrival = false)) ∧
    (let c := ctx (atCell (some { off := 0, ph := true }) 0)
     PhaseOver c 32 false ((c.uval (.s 6)).getLsbD 0) { off := 32, ph := true }) ∧
    (let c := ctx (atCell (some { off := 0, ph := true, arrival := true, full := true }) 0)
     PhaseOver c 32 true ((c.uval (.s 6)).getLsbD 0) { off := 32, ph := true, arrival := true, full := true } ∧
     (∃ t, c.out.announce c.blockId 32 0x7FFFFFFF = .ok t) ∧ c.blockId < c.s.blocks.length) ∧
    (let c := ctx (atCell (some { off := 0 }) 5)
     c.member 0 = .block 0 ∧ c.cellFault 0 32 = none ∧ ∃ t, c.out.arriveThread 0 32 5 true = .ok t) := by
  refine ⟨?_, ?_, ⟨rfl, rfl, rfl, by decide, fun _ _ _ _ h => by cases (show none = some _ from h)⟩, ⟨⟨rfl, rfl, rfl, by decide, fun _ _ _ _ h => by cases (show none = some _ from h)⟩,
    ⟨_, rfl⟩, by decide⟩, rfl, rfl, _, rfl⟩
  · rintro k (rfl | rfl)
    · exact ⟨issues _ _ rfl rfl, ⟨_, rfl, rfl⟩, rfl, .inl rfl, rfl⟩
    · exact ⟨issues _ _ rfl rfl, ⟨_, rfl, rfl⟩, rfl, .inr rfl, rfl⟩
  · rintro e (rfl | rfl) <;> exact ⟨issues _ _ rfl rfl, _, rfl, _, rfl, by decide, rfl, rfl⟩

/-- One byte from 0 to 128 of the scratchpad, and no byte at all. -/
def copying (n : Nat) : State := base.writeBytes (.scr 0) 64
  (bytesOfNat 4 0 ++ bytesOfNat 4 128 ++ (List.replicate 6 (bytesOfNat 2 n)).flatten)

theorem test_meets_Copies : (∀ n : Nat, n = 0 ∨ n = 1 →
      (let s := setS 4 64 (copying n)
       s.Issues (ctx s) ∧ ∃ bs idx, CopyRuns (ctx s) (.s 4) bs idx ∧ copyCounts bs = List.replicate 6 n)) ∧
    (∀ k : Nat, k = 0 ∨ k = 1 →
      (let s := setS 4 0x80 (onWave (fun w => { w with tokens := w.tokens.set 7 { count := k } }) base)
       Meets s ((ctx s).tokenNeed (.s 6) (.s 4)) ∧ ((List.range 8).filter fun i => ((ctx s).uval (.s 4)).getLsbD i) = [7] ∧
       ((ctx s).w.token 7).count = k)) ∧
    (let s := setS 4 7 base
     Meets s { operand := !(ctx s).uniRegOk (.s 62) 2 2 || !(ctx s).uniSrcOk (.s 4) || 8 ≤ ((ctx s).uval (.s 4)).toNat,
               regs := specRegs (.s 62) 2 ++ specRegs (.s 4) 1 }) := by
  refine ⟨?_, ?_, meets rfl rfl (by decide)⟩
  · rintro n (rfl | rfl) <;>
    exact ⟨issues _ _ rfl rfl, _, _,
      ⟨passes (by decide), by decide, by decide, by decide, by decide, rfl, by decide, by decide, by decide, by decide,
        by decide, rfl, ⟨rfl, rfl⟩, rfl, ⟨rfl, rfl⟩⟩, by decide⟩
  · rintro k (rfl | rfl) <;> exact ⟨meets rfl rfl (by decide), by decide, rfl⟩

/-- R276: engine 31, context 7. -/
def streaming (y : List XCtx) : State := { held hold0 (setS 6 0xFF (setS 4 0x1000 base)) with engines := y }
def bound (l : Nat) (p : XPhase) : XCtx :=
  { engine := 31, k := 7, launch := l, pc := 0x1000, seq := 0, site := r0, sitePc := here, phase := p }

theorem test_meets_StreamInstructions : (∀ l : List XCtx, l = [] ∨ l = [bound 0 .running] ∨ l = [bound 1 .running] ∨
    l = [bound 0 (.faulted 3)] →
    (let c := ctx (streaming l)
     (streaming l).Issues c ∧ (∃ h, c.Settled h) ∧ (c.uval (.s 6)).toNat % 32 = 31 ∧ (c.uval (.s 6)).toNat / 32 % 8 = 7 ∧
     c.s.xctx? 31 7 = l.head? ∧ c.launchId = 0)) := by
  rintro l (rfl | rfl | rfl | rfl) <;> exact ⟨issues _ _ rfl rfl, ⟨_, rfl, rfl⟩, by decide, by decide, rfl, rfl⟩

/-- R276 to R279: SSTART binds the context, or finds it bound. -/
theorem test_sstart : (after (.sstart (.s 6) (.s 4) 0) (streaming [])).engines.map (fun y => (y.engine, y.k, y.pc)) =
      [(31, 7, 0x1000)] ∧ sreg (after (.sstart (.s 6) (.s 4) 0) (streaming [bound 1 .running])) 6 = 1 := by decide

/-- A handle of the block's first C tile. -/
def entry (i : Nat) : HandleEntry :=
  { idx := i, alloc := true, buf := .c, off := 0, len := 4096, launch := 0, block := 0 }
/-- The core's handle table with its first n entries in use. -/
def handled0 (n : Nat) : State := base.updCore 0 fun c => { c with handles := (List.range n).map entry }

theorem find_entry (n i : Nat) (h : i < n) : ((List.range n).map entry).find? (·.idx == i) = some (entry i) := by
  induction n with
  | zero => omega
  | succ n ih =>
    rw [List.range_succ, List.map_append, List.find?_append]
    by_cases k : i < n
    · simp [ih k]
    · have e : i = n := by omega
      subst e
      have : ((List.range i).map entry).find? (·.idx == i) = none := by
        simp only [List.find?_map, Option.map_eq_none_iff, List.find?_eq_none, List.mem_range]
        intro x hx; simp [entry]; omega
      simp [this, entry]

theorem handles_eq (n : Nat) : (ctx (held hold0 (handled0 n))).coreState.handles = (List.range n).map entry := rfl

theorem no_free_handle : (ctx (held hold0 (handled0 1024))).coreState.freeHandle = none := by
  refine List.find?_eq_none.2 fun i hi => ?_
  rw [Core.handle, handles_eq, find_entry 1024 i (List.mem_range.1 hi)]
  simp [entry]

theorem test_meets_MatrixUnits :
    (let s := held { hold0 with lanesDone := 0xFFFFFFFF } (setS 4 0x400 (handled0 1))
     s.Issues (ctx s) ∧ (∃ h, (ctx s).Settled h) ∧ (ctx s).coreState.freeHandle = some 1 ∧
     (ctx s).freeFault ((ctx s).uval (.s 4)).toNat = none) ∧
    (let s := held hold0 (handled0 1024)
     s.Issues (ctx s) ∧ (∃ h, (ctx s).Settled h) ∧ (ctx s).coreState.freeHandle = none) ∧
    (let s := setS 4 0x400 (handled0 1)
     let c := ctx s
     Meets s { illegal := c.inA, operand := !c.vecRun 28 4 4 || !c.uniSrcOk (.s 4) || tileRsv (c.uval (.s 4)), guard := true,
               regs := specRegs (.v 28) 4 ++ specRegs (.s 4) 1 } ∧
     c.tileFault [cUse (c.uval (.s 4))] = none ∧ c.tileLocked (cUse (c.uval (.s 4))) false = false ∧
     28 + 3 < c.st.regs.v.length ∧
     ∀ i < 32, c.s.poisonIn (c.tileAt (cUse (c.uval (.s 4)))).1 ((c.tileAt (cUse (c.uval (.s 4)))).2 + 128 * i + 112) 16 = none) :=
  ⟨⟨issues _ _ rfl rfl, ⟨_, rfl, rfl⟩, by decide +kernel, by decide⟩, ⟨issues _ _ rfl rfl, ⟨_, rfl, rfl⟩, no_free_handle⟩,
    meets rfl rfl (by decide), by decide, by decide, by decide, by decide⟩

/-- The words of a KD8 step on the C tile of handle 0 with the B tile of handle 1, or with a table of one group for it;
the B tile is poisoned where `bad`. -/
def matrixed (grouped bad : Bool) : State :=
  let s := setS 4 0 (setS 5 0 (setS 6 (if grouped then 0 else 0x401) (setS 7 0x400 base)))
  let s := s.updCore 0 fun c => { c with handles := [entry 0, { entry 1 with buf := .w, len := 512 }] }
  let s := s.writeBytes (.scr 0) 0 (bytesOfNat 8 (32 + 0x401 * 2 ^ 32))
  if bad then s.setPoison { place := .typed 0 .w, idx := 0 } true else s
/-- The groups of the words at s4 can be read, and the step does not fault. -/
def groupedB (c : Ctx) (grouped : Bool) (b : FormatBlock) (w2 w3 : Word) : Bool := match c.matrixGroups grouped b w2 with
  | .ok gs => (c.matrixFault b gs w3).isNone
  | _ => false
theorem groupedOk {c : Ctx} {g : Bool} {b : FormatBlock} {w2 w3 : Word} (h : groupedB c g b w2 w3 = true) :
    ∃ gs, c.matrixGroups g b w2 = .ok gs ∧ c.matrixFault b gs w3 = none := by
  unfold groupedB at h
  cases k : c.matrixGroups g b w2 with
  | ok gs => exact ⟨gs, rfl, by simpa [k] using h⟩
  | error e => simp [k] at h
def readsOk (c : Ctx) (l : List Src) : Bool := match c.readAll l with
  | .ok _ _ => true
  | _ => false
theorem readsAll {c : Ctx} {l : List Src} (h : readsOk c l = true) : ∃ c1 vals, c.readAll l = .ok c1 vals := by
  unfold readsOk at h
  cases k : c.readAll l with
  | ok c1 vals => exact ⟨c1, vals, rfl⟩
  | _ => simp [k] at h

theorem test_meets_MatrixUnits_issue : ∀ g : Bool,
    let s := matrixed g false
    let c := ctx s
    let w := fun i => (c.words4 (.s 4)).getD i 0
    let b := FormatBlock.of (w 0) (w 1)
    s.Issues c ∧ c.f.hold = none ∧ c.Passes
      { illegal := c.inA, noRegion := true, guard := true, regs := specRegs (.v 8) 4 ++ specRegs (.s 4) 4
        operand := !c.aSrcOk (.v 8) || !c.uniRegOk (.s 4) 4 4 || b.rsv || 4 < b.af || 4 < b.bf || !b.pairOk || tileRsv (w 3) ||
          (g && (w 2).toNat % 64 != 0) || (c.w.latch.map fun l => l.af != b.af).getD false } ∧
    (∃ gs, c.matrixGroups g b (w 2) = .ok gs ∧ c.matrixFault b gs (w 3) = none) ∧
    c.w.latch = none ∧ (∃ c1 vals, c.readAll (aWords (.v 8)) = .ok c1 vals) ∧
    (ctx (onWave (fun w => { w with latch := some { af := 0, rows := [] } }) s)).w.latch.isSome = true ∧
    (s.context? c.fn c.asid).isSome = true := by
  intro g
  refine ⟨issues _ _ ?_ ?_, ?_, passes ?_, groupedOk ?_, ?_, readsAll ?_, ?_, ?_⟩ <;> cases g <;> decide +kernel

/-- A settled step whose B tile is sound or poisoned, and a settled CPACK of a sound tile. -/
theorem test_meets_MatrixUnits_settled : ∀ bad : Bool,
    let h0 : Hold := { hold0 with lanesDone := 0xFFFFFFFF, rows := [64 * 32 + 4096 * 0x401] }
    let s := held h0 (matrixed false bad)
    let c := ctx s
    let h : Hold := { h0 with settled := true, regs := c.st.regs }
    let gs : List Group := h.rows.map fun d =>
      { first := d.toNat % 64, rows := d.toNat / 64 % 64, bh := d.toNat / 4096 % 65536
        bo := d.toNat / 2 ^ 28 % 65536, sbo := d.toNat / 2 ^ 44 }
    s.Issues c ∧ c.Settled h ∧
    (c.matrixBad (FormatBlock.of 0 0) gs ((c.words4 (.s 4)).getD 3 0) h.lanesDone).isSome = bad ∧
    ∀ i ∈ lanes, c.s.poisonIn (.typed 0 .c) (128 * i) 128 = none := by
  intro bad
  refine ⟨issues _ _ ?_ ?_, ⟨?_, rfl⟩, ?_, ?_⟩ <;> cases bad <;> decide +kernel

/-- R291: CWR's four words of a row, and CRD's. -/
theorem test_tile :
    let s := setV 30 (BitVec.ofNat 32) (setS 4 0x400 (handled0 1))
    let t := after (.cwr (.v 28) (.s 4) 0 7) (held { hold0 with lanesDone := 0xFFFFFFFF } s)
    vreg (after (.crd (.v 8) (.s 4) 0 7) (State.by t)) 10 31 = 31 := by decide +kernel

def messages (l : List Msg) (h : Hold) : State := (held h base).updContext 96 0 fun k => { k with
  aq := [[], [], [], l], vtime := 5 * Config.unitsPerTick }

/-- A RECV of the queue waits in the address slice. -/
def receiving : State := held hold0 (meeting r0 (some (.recv 3 1)))

theorem test_meets_MessagesAndSpawn :
    (∀ x : Nat, x = 5000 ∨ x = 5001 →
      (let s := messages [⟨x, 0, 0, []⟩] hold0
       s.Issues (ctx s) ∧ (∃ h, (ctx s).Settled h) ∧ (ctx s).launch.packet.vtp ≠ 1 ∧
       (ctx s).context.aq.getD 3 [] = [⟨x, 0, 0, []⟩] ∧ (x ≤ (ctx s).context.vns ↔ x = 5000))) ∧
    (ctx (messages [] hold0)).s.receivers 96 0 3 = [] ∧
    (let s := receiving
     s.Issues (ctx s) ∧ (∃ h, (ctx s).Settled h) ∧ ∃ y ∈ (ctx s).s.receivers (ctx s).fn (ctx s).asid 3, y.1 ≠ (ctx s).r ∧
       (ctx s).f.park = none) ∧
    (∀ a : PeerAnswer, a = .data [] ∨ a = .poisoned ∨ a = .refused ∨ a = .vfGone →
      (let s := { messages [] { hold0 with arrived := true, reqs := [0] } with
         peers := [{ id := 0, fn := 96, node := 5, off := 0, ask := .load 0, since := 0, st := .answered a }] }
       s.Issues (ctx s) ∧ (∃ h, (ctx s).Settled h ∧ h.arrived = true ∧ (ctx s).s.peerAnswer? (h.reqs.getD 0 0) = some a))) ∧
    (let s := messages [] { hold0 with data := List.replicate 16 0 }
     s.Issues (ctx s) ∧ ∃ h, (ctx s).Settled h ∧ h.arrived = false ∧
       ∃ t n, (ctx s).s.sendNode 96 0 (ctx s).r.wave (SendHdr.of (h.data.take 16)) (h.data.take 16) [] = .status t n) ∧
    (∀ m : Nat, m = 2 ^ 32 - 1 ∨ m = 2 ^ 32 →
      (let s := held { hold0 with data := [1, 0, 1, 0] ++ List.replicate 60 0 } (base.updLaunch 0 fun l => { l with nextBlock := m })
       s.Issues (ctx s) ∧ (∃ h, (ctx s).Settled h ∧ (SpawnRec.of h.data).gang * (SpawnRec.of h.data).nb = 1) ∧
       (ctx s).launch.nextBlock = m ∧ (ctx s).launchId < (ctx s).s.launches.length)) ∧
    (∀ x : Word × Word, x = (0xFF, 0) ∨ x = (0xFF, 1) →
      (let s := held hold0 (setS 6 x.1 (setS 7 x.2 (setS 4 0x2000 base)))
       s.Issues (ctx s) ∧ (∃ h, (ctx s).Settled h) ∧
       ∃ y, (ctx s).virtOut false false 4 0 ((ctx s).uval64 (.s 4)).toNat = .ok y ∧ (ctx s).s.poisoned .dev y.addr = false)) := by
  refine ⟨?_, rfl, ⟨issues _ _ rfl rfl, ⟨_, rfl, rfl⟩, (ra, 1), by decide, by decide, rfl⟩, ?_,
    ⟨issues _ _ rfl rfl, _, ⟨rfl, rfl⟩, rfl, _, _, rfl⟩, ?_, ?_⟩
  · rintro x (rfl | rfl) <;> exact ⟨issues _ _ rfl rfl, ⟨_, rfl, rfl⟩, by decide, rfl, by decide⟩
  · rintro a (rfl | rfl | rfl | rfl) <;> exact ⟨issues _ _ rfl rfl, ⟨_, ⟨rfl, rfl⟩, rfl, rfl⟩⟩
  · rintro m (rfl | rfl) <;> exact ⟨issues _ _ rfl rfl, ⟨_, ⟨rfl, rfl⟩, by decide⟩, rfl, by decide⟩
  · rintro x (rfl | rfl) <;> exact ⟨issues _ _ rfl rfl, ⟨_, rfl, rfl⟩, _, rfl, rfl⟩

/-- With a RECV ahead of it, a RECV waits for its turn where two messages are there, and not where one is; the word that a
WAITV polls is sound or poisoned. -/
theorem test_meets_MessagesAndSpawn_turns : (∀ two : Bool,
      let s := receiving.updContext 96 0 fun k => { k with aq := [[], [], [], ⟨0, 0, 0, []⟩ :: if two then [⟨0, 0, 0, []⟩] else []] }
      let c := ctx s
      let ahead := (c.s.receivers c.fn c.asid 3).filter fun y => y.1 != c.r
      s.Issues c ∧ (∃ h, c.Settled h) ∧ c.f.park = none ∧ ahead ≠ [] ∧ c.awaits 3 ahead = two) ∧
    (∀ bad : Bool,
      let s := held hold0 ((setS 4 0x2000 base).setPoison { place := .dev, idx := 0x100 } bad)
      let c := ctx s
      s.Issues c ∧ (∃ h, c.Settled h) ∧
      ∃ y, c.virtOut false false 4 0 (c.uval64 (.s 4)).toNat = .ok y ∧
        (c.strongBad (c.s.strongReads c.blockId c.w.core c.sc .dev y.addr 4).1 [y]).isSome = bad) := by
  refine ⟨fun two => ?_, fun bad => ?_⟩
  · cases two <;> exact ⟨issues _ _ rfl rfl, ⟨_, rfl, rfl⟩, rfl, by decide, by decide⟩
  · cases bad <;> exact ⟨issues _ _ rfl rfl, ⟨_, rfl, rfl⟩, ⟨0, .dev, 0x2000, 0x2000⟩, rfl, by decide +kernel⟩

/-- R309: a spawn of one block gives its index, and the launch counts it; R312: WAITV completes or parks. -/
theorem test_spawn :
    let t := after (.spawn (.s 6) (.s 4) 0) (held { hold0 with data := [1, 0, 1, 0] ++ List.replicate 60 0 } base)
    (t.blocks.length, sreg t 6) = (2, 1) := by decide

theorem test_waitv : (frag0 (after (.waitv (.s 6) (.s 4) 0 0) (held hold0 (setS 6 0xFF base)))).park = none ∧
    (frag0 (after (.waitv (.s 6) (.s 4) 0 1) (held hold0 (setS 6 0xFF base)))).park = some .waitv := by decide

/-! Stream commands. -/

/-- A stream context at a command of its program, with what `f` gives it. -/
def engineAs (f : XCtx → XCtx) (g : State → State) : State :=
  let s := g base.withEngine
  { s with issuer := .engine 0 0, engines := s.engines.map f }
def xOf (s : State) : XCtx := (s.xctx? 0 0).getD (bound 0 .running)

/-- Two loops are active, k = 5 inside; slot 15 names 64 bytes of WBUF and the cell at 32. -/
def commanding (c : Cell) : State := engineAs (fun x => { x with
  loops := [⟨5, 0, 2, fetchVa, fetchVa + 32⟩, ⟨0, 3, 9, 0, 2 ^ 40⟩], ss := [16, 0, 0, 0, 0, 0], sb := 0x200
  slots := [⟨15, 0, 0, 0, 64, 32⟩] }) (celled c)

theorem test_meets_StreamCommands : (∀ c : Cell, c = { off := 0 } ∨ c = { off := 0, arrival := true } ∨
      c = { off := 0, arrival := true, unit := 2 } →
      (let s := commanding c
       Commands s (xOf s) ∧ (∃ f, s.fill (xOf s) 15 = .ok f ∧ (s.block f.block).cell? f.cell = some { c with off := 32 }))) ∧
    (let s := commanding { off := 0, arrival := true }
     let x := xOf s
     (∃ l ∈ x.loops, l.k = 0) ∧ (∀ l ∈ x.loops, l.k ≠ 4) ∧ (∀ l ∈ x.loops.head?, x.pc + 16 * 2 ≤ l.last) ∧
     (∃ l ∈ x.loops.head?, l.last < x.pc + 16 * 3) ∧
     (∃ va, x.flagAt 0 = some va ∧ (∃ pa p, s.engineRead x va = (.ok pa, p) ∧ waitWord s x p pa 0xFF = 0) ∧
       ∃ pa, s.translate none (s.launch x.launch).fn (s.launch x.launch).asid
         { write := true, priv := (s.launch x.launch).priv } va = .ok pa) ∧
     x.flagAt 0xFFFFFC00 = none ∧ (∃ t, s.countUnits 0 32 1 = some t)) := by
  refine ⟨?_, ⟨⟨0, 3, 9, 0, 2 ^ 40⟩, by decide, rfl⟩, by decide, by decide, ⟨_, rfl, by decide⟩, ⟨_, rfl, ⟨_, _, rfl, by decide⟩, _, rfl⟩, by decide,
    _, rfl⟩
  rintro c (rfl | rfl | rfl) <;> exact ⟨⟨rfl, rfl, fun code h => by cases (show XPhase.running = .faulted code from h)⟩, _, rfl, rfl⟩

/-- R298: a loop of no passes, which may end an enclosing pass, and a jump out of both loops. -/
theorem test_commands :
    let s := commanding { off := 0 }
    (xOf (after (.xloop 4 1 0) s)).pc = fetchVa + 32 ∧ (xOf (after (.xloop 4 2 0) s)).pc = fetchVa ∧
    ((xOf (after (.xloop 4 2 0) s)).loops.map (·.i)) = [1, 3] ∧ (xOf (after (.xloop 4 2 3) s)).loops.length = 3 ∧
    (xOf (after (.xjump 0xFFFFFFFF) s)).loops.length = 1 ∧ (xOf (after (.xstride 7 9 0 0) s)).cb = 9 ∧
    (xOf (after .xfence s)).seq = 1 ∧ (after .xhalt s).engines.length = 0 ∧
    (xOf (after (.xflag 0 7) s)).pc = fetchVa + 16 ∧ (after (.xflag 0 7) s).devRead 0x200 = 7 := by decide

/-- A tile of two rows of 16 bytes for slot 15, its lock free or taken. -/
def filling (k : Bool) : State := engineAs (fun x => { x with slots := [⟨15, 0, 0, 0, 64, 32⟩], locked := k })
  (celled { off := 0, arrival := true, unit := 1 })

/-- The moves can be read, written and counted. -/
def countsB (s : State) (x : XCtx) (f : Fill) (ms : List Move) : Bool := match s.gatherMoves x ms with
  | .all bs => (match (s.writeMoves f.place f.off bs).countFill x f f.off false (bs.map fun m => m.1) with
    | .ok _ => true
    | _ => false)
  | _ => false

theorem test_meets_StreamTransfers : ∀ k : Bool,
    (let s := filling k
     let x := xOf s
     Commands s x ∧ (∃ f, s.fill x 15 = .ok f ∧ f.len = 64 ∧ f.off = 0 ∧ f.place = .typed 0 .w ∧
       (∃ t, s.lockFill x f 0 64 = some t) ∧
       countsB s x f [(0, 0), (1, 63)] = true ∧ (0 < 63 ∧ sectorMoves f.off 1 none [(0, 0), (1, 63)] = 1)) ∧
     (∃ y, (engineAs (fun z => { z with locked := k, stale := some 0x400, quota := some 1 }) id).xctx? 0 0 = some y ∧
       y.stale = some 0x400 ∧ y.quota = some 1 ∧ y.locked = k) ∧
     x.locked = k ∧ x.stale = none ∧ movesOk 64 [(0, 0), (1, 63)] = true ∧ movesOk 64 [(0, 64)] = false ∧
     x.srcAt 2 % 4 ≠ 0 ∧ x.srcAt 4 % 4 = 0 ∧ (∃ idx, s.gatherIndex x 4 2 = .ok idx) ∧
     (s.block 0).tagged 32 32 = true ∧ (s.block 0).tagged 64 32 = false ∧ 65504 + 32 ≤ (s.block 0).scrSize) := by
  intro k
  cases k <;> exact ⟨⟨rfl, rfl, fun code h => by cases (show XPhase.running = .faulted code from h)⟩,
    ⟨_, rfl, rfl, rfl, rfl, ⟨_, rfl⟩, by decide +kernel, by decide⟩, ⟨_, rfl, rfl, rfl, rfl⟩, rfl, rfl, by decide, by decide, by decide, by decide, ⟨_, rfl⟩,
    by decide, by decide, by decide⟩

/-- A slot that names handle 1, and one that names a cell at 32 where none stands. -/
def throughHandle : State := engineAs (fun x => { x with slots := [⟨15, 2, 0, 0x401, 0, 32⟩] }) fun s => s.updCore 0 fun c => { c with
  handles := [entry 0, { entry 1 with buf := .w, len := 512 }] }

theorem test_meets_StreamTransfers_handle :
    (let s := throughHandle
     let x := xOf s
     Commands s x ∧ x.user = none ∧ ∃ f, s.fill x 15 = .ok f ∧ f.handle = some 0x401 ∧ f.len = 512 ∧
       (s.block f.block).cell? f.cell = none ∧
       (∃ t, (s.useHandle x f).1.lockFill (s.useHandle x f).2 { f with place := f.place } f.off f.len = some t) ∧
       ∃ idx, (s.useHandle x f).1.gatherIndex (s.useHandle x f).2 0x2000 2 = .ok idx) :=
  ⟨⟨rfl, rfl, fun code h => by cases (show XPhase.running = .faulted code from h)⟩, rfl, _, rfl, rfl, rfl, rfl, ⟨_, rfl⟩, _, rfl⟩

/-- R299: the second row of a tile stands a pitch further on. -/
theorem test_xfer :
    let s := engineAs (fun x => { x with slots := [⟨15, 0, 0, 0, 64, 32⟩], locked := true, sb := 0x8000 })
      (celled { off := 0, arrival := true, unit := 1 })
    let t := after (.xfer 15 false 1 0 2 2 0x2000) s
    (t.readBytes (.typed 0 .w) 0 2, t.readBytes (.typed 0 .w) 16 2) = ([0x01, 0xA0], [0x01, 0xC0]) := by decide +kernel

/-! Waits, timers, messages. -/

/-- A store of 128 cycles ago, and one of now, in the settle window. -/
def windowed : State := { onWave (fun w => { w with seq := 2, pend :=
  [{ seq := 0, issued := 0, slice := .c, key := ⟨.scr 0, 0⟩, va := 0, bytes := [(0, 7)] },
   { seq := 1, issued := 1, slice := .c, key := ⟨.scr 0, 0⟩, va := 0, bytes := [(1, 8)] }] }) base with cycle := 128 }

def growing : State := onFrag (fun f => { f with park := some (.grow 96) }) base

/-- The copy of one byte, as ACPY leaves it in flight, 128 cycles later. -/
def inFlight : State := { after (.acpy (.s 4) 0 7) (setS 4 64 (copying 1)) with cycle := 128 }

theorem test_meets_WaitsEnd :
    (0 < windowed.waves.length ∧ (windowed.wave 0).exitedAt = none ∧ (windowed.block (windowed.blockOf 0)).stopping = false ∧
      (windowed.launch (windowed.launchOf 0)).phase ≠ .ending) ∧
    (Ctx.of? growing r0 = some (ctx growing) ∧ (ctx growing).f.park = some (.grow 96) ∧
      (∀ x ∈ (ctx growing).st.live, x.1 ≠ r0.entry → ∀ m, x.2.park ≠ some (.grow m)) ∧
      96 ≤ (ctx growing).s.freeRegs (ctx growing).w.core ∧
      ∀ w ∈ (ctx growing).fellows, w.growing = true → (ctx growing).w.age ≤ w.age) ∧
    ∃ c u done, (inFlight.core 0).copies.find? (fun x => x.idx == 0) = some c ∧ c.issued + 128 ≤ inFlight.cycle ∧
      (∀ l ∈ (inFlight.wave c.wave).loads, c.issued ≤ l.issued) ∧ (∀ p ∈ (inFlight.wave c.wave).pend, c.issued ≤ p.issued) ∧
      inFlight.copyWalk 0 { c with park := none } (nestSize c.counts + 1) = .finished u done ∧ c.wave < u.waves.length ∧
      c.token < (u.wave c.wave).tokens.length ∧
      ∃ w ∈ ((u.copyEnd 0 c done none).block (inFlight.wave c.wave).block).waves, ((u.copyEnd 0 c done none).wave w).retired = false ∧
        ((u.copyEnd 0 c done none).launch (inFlight.launchOf c.wave)).phase ≠ .ending := by
  refine ⟨⟨by decide, rfl, rfl, by decide⟩, ⟨rfl, rfl, ?_, by decide, by decide⟩, _, _, _, rfl, by decide, by decide, by decide, rfl,
    by decide, by decide, 0, by decide +kernel, by decide +kernel, by decide +kernel⟩
  intro x hx hn
  have : x = (0, (frag0 growing)) := by
    have h : (ctx growing).st.live = [(0, frag0 growing)] := rfl
    rw [h] at hx; simpa using hx
  subst this
  exact absurd rfl hn

/-- R207: of the two, the older leaves the window; R274: the copy's token counts down. -/
theorem test_waits_end : ((after (.settleWindowExpiry 0) windowed).wave 0).pend.map (·.seq) = [1] ∧
    ((inFlight.wave 0).token 7).count = 1 ∧ (((after (.copyComplete 0 0) inFlight).wave 0).token 7).count = 0 := by decide

/-- R58, R59, R274: the last copy of a block whose wave has retired lets the block and its launch go (log entry 21). -/
theorem test_last_copy : ((after (.copyComplete 0 0) (onWave (fun w => { w with retired := true }) inFlight)).block 0).phase =
    .retired := by decide +kernel

/-- A timer that falls due now, one that does not, and one that is not armed. -/
def ticking (d : Dword) (a : Bool) : State := base.updContext 96 0 fun k => { k with
  vtime := 5 * Config.unitsPerTick
  timers := k.timers.set 3 { deadline := d, armed := a, te := true, owner := some (0, .c) } }

theorem test_meets_TimerFires : ∀ x : Dword × Bool, x = (5000, true) ∨ x = (5001, true) ∨ x = (0, false) →
    ∃ k, Holds (ticking x.1 x.2) 96 0 k ∧ k.running = true ∧ (k.timers.getD 3 {}).armed = x.2 ∧
      (k.timers.getD 3 {}).owner = some (0, .c) ∧ (k.timers.getD 3 {}).te = true ∧
      ((k.timers.getD 3 {}).deadline.toNat ≤ k.vns ↔ x.1 ≠ 5001) := by
  rintro x (rfl | rfl | rfl) <;> exact ⟨_, rfl, rfl, rfl, rfl, rfl, by decide⟩

/-- R305: the timer falls due in its owner. -/
theorem test_timer : ((after (.timerFire 96 0 3) (ticking 5000 true)).wave 0).c.timers = [(3, 5000)] := by decide

def queuedIn (n : Nat) (cs : List Contract) (e : Bool) : State := base.updContext 96 0 fun k => { k with
  aq := [[], [], [], List.replicate n ⟨0, 0, 0, []⟩], contracts := cs, ended := e }
def contract (due : Nat) (da al : Bool) : Contract :=
  { src := 5, tag := 6, da := da, arrived := 0, due := due, alarmed := al, stopped := 4 * Config.unitsPerTick
    sender := some (96, 0) }

/-- A context of VF 3, which answers to node 1 or to none. -/
def noded (n : Bool) : State := { base with
  functions := [{ fn := 3, cfg := if n then 0x1801 else 1, asids := 0x10000 }]
  contexts := base.contexts ++ [{ newContext 3 0 with accepted := true }] }

theorem test_meets_MessageEvents : (base.function 96).tear = none ∧ base.wasxAsid 96 = 0 ∧ base.up = true ∧
    (∀ n : Nat, n = 63 ∨ n = 64 → ∃ k, Holds (queuedIn n [] false) 96 0 k ∧ k.ended = false ∧ k.migrated = false ∧ k.accepted = true ∧
      (k.aq.getD 3 []).length = n ∧ 3 < k.aq.length ∧ 3 < k.lastStamp.length ∧ k.running = true ∧
      ∃ m, (k.aq.getD 3 []).head? = some m ∧ m.stamp ≤ k.vns) ∧
    (∃ k, Holds (queuedIn 0 [] true) 96 0 k ∧ k.ended = true) ∧ base.context? 96 1 = none ∧
    (∃ k, Holds (base.updContext 96 0 fun k => { k with accepted := false }) 96 0 k ∧ k.accepted = false) ∧
    base.presents 3 = false ∧ base.presents 96 = true ∧ base.receivers 96 0 3 = [] ∧ receiving.receivers 96 0 3 = [(ra, 1)] ∧
    (∀ n : Bool, (noded n).wasxAsid 3 = 0 ∧ (noded n).tornNode ((noded n).function 3).node = false ∧
      ((noded n).function 3).nen = n ∧ ∃ k, Holds (noded n) 3 0 k ∧ k.accepted = true) ∧
    (∀ x : Nat × Bool, x = (8 * Config.unitsPerTick - 1, true) ∨ x = (8 * Config.unitsPerTick - 1, false) ∨
      x = (8 * Config.unitsPerTick, true) →
      ∃ k, Holds (queuedIn 0 [contract x.1 x.2 false] false) 96 0 k ∧ k.contracts[0]? = some (contract x.1 x.2 false) ∧
        0 < (contract x.1 x.2 false).owed ∧ k.migrated = false ∧ (contract x.1 x.2 false).sender = some (96, 0) ∧
        ((contract x.1 x.2 false).due < base.time + 8 * Config.unitsPerTick ↔ x.1 ≠ 8 * Config.unitsPerTick)) := by
  refine ⟨rfl, rfl, rfl, ?_, ⟨_, rfl, rfl⟩, rfl, ⟨_, rfl, rfl⟩, by decide, by decide, rfl, by decide,
    by rintro (_ | _) <;> exact ⟨rfl, rfl, rfl, _, rfl, rfl⟩, ?_⟩
  · rintro n (rfl | rfl) <;> exact ⟨_, rfl, rfl, rfl, rfl, by decide, by decide, by decide, rfl, _, rfl, by decide⟩
  · rintro x (rfl | rfl | rfl) <;> exact ⟨_, rfl, rfl, by decide, rfl, rfl, by decide⟩

/-! Queues, launches and blocks. -/

/-- The registers of the module with a queue table at 0x20000 and every core enabled. -/
def wide (s : State) : State := { s with mregs := { s.mregs with qtb := 0x20000, hmap := List.replicate 8 0xFFFFFFFF } }
/-- An entry of that table, valid, with a ring of 2 packets at 0x30000 and a pool of 1 page of 8 KB in each of 64. -/
def entryOf (q : Nat) (s : State) : State := s.devWrite (0x20000 + 64 * q)
  (bytesOfNat 8 0x30000 ++ bytesOfNat 8 0x40000 ++ bytesOfNat 8 0x100000 ++ bytesOfNat 8 0 ++ bytesOfNat 4 0x100000 ++
    bytesOfNat 4 0 ++ bytesOfNat 2 0 ++ [1, 1])
/-- Queue 1 waits with a packet of 1 or of no lanes. -/
def tabled (lanes : Byte) : State :=
  let s : State := entryOf 1 { wide base with queues := base.queues ++ [{ id := 1, fn := 96, tail := 2 }] }
  s.devWrite 0x30000 (bytesOfNat 8 0 ++ bytesOfNat 8 fetchVa ++ [lanes])
/-- Queue 1 holds slot 1. -/
def mappedQ (lanes : Byte) : State := (tabled lanes).mapQueue 1 1
/-- A block of 40 lanes waits for core 0, which block 0 fills, spinning, or leaves room in. -/
def waitingB (full : Bool) : State :=
  let s := onFrag (fun f => { f with park := some .waitv }) (wide base)
  let s := s.updLaunch 0 fun l => { l with packet := { l.packet with lanes := 40, place := 1, pwaves := 8 } }
  { s with blocks := (s.blocks.map fun k => { k with scrSize := if full then 2 ^ 18 else 1024 }) ++ [{ launch := 0, index := 1, scrSize := 1024 }]
           maint := { s.maint with excluded := [1, 2, 3] } }
/-- VF 3 is enabled with queues 8 and 9; VF 5 is enabled, time-sliced, and its queue 16 runnable. -/
def functions (turn : Option Nat) (weight : Word) : State :=
  let s := { wide base with
    functions := [{ fn := 3, cfg := 1, vfq := 0x10080100 }, { fn := 5, cfg := 3, vfq := 0x00100105, slice := weight, asids := 0x10007 }]
    queues := [{ id := 16, fn := 5, slot := some 3, tail := 1 }] }
  { s with sched := { s.sched with turnFn := turn } }

/-- The packet of queue 1 can be read, is judged with a code, and waits for nothing. -/
def coded (s : State) (code : Nat) : Bool := match s.readVirt (s.queue 1).fn (s.queue 1).asid 0x30000 128 true with
  | .ok bs => s.packetCode (s.queue 1).fn (s.qent 1) bs == code && leAt bs 48 8 == 0
  | _ => false

theorem test_meets_Scheduling :
    (functions none 0).up = true ∧ (functions none 0).ownerOf 9 = 3 ∧ ((functions none 0).function 3).en = true ∧
      ((functions none 0).function 3).tear = none ∧ 1 < 2 ^ ((functions none 0).function 3).qlog ∧ isVf 96 = false ∧
      (functions none 0).ownerOf 2 = 96 ∧
    (let s := tabled 1
     s.nextQueue (s.ownerOf 1) = some 1 ∧ s.freeSlot (s.ownerOf 1) = some 1) ∧
    (functions none 0).turnOver = true ∧ (functions none 0).slicedRunnable.head? = some 5 ∧
    (functions (some 5) 1).turnOver = false ∧
    (∀ lanes code, (lanes, code) = (1, 0) ∨ (lanes, code) = (0, 1) →
      (let s := mappedQ lanes
       (s.queue 1).slot.isSome = true ∧ (s.queue 1).preempted = false ∧ (s.queue 1).draining = false ∧ (s.queue 1).xlate = none ∧
       ((s.context? (s.queue 1).fn (s.queue 1).asid).map fun c => c.ended && !c.torn).getD false = false ∧ s.unheld 1 = true ∧
       s.nextPacket 1 = some (0x30000, 0, false) ∧ (s.qent 1).valid = true ∧
       coded s code = true)) ∧
    (waitingB false).ready.head? = some 1 ∧ (waitingB false).placeCore 1 = some 0 ∧ ((waitingB false).block 1).phase = .waiting ∧
    (waitingB true).mayDisplace 1 = true ∧ ((waitingB true).block 1).shadow = false ∧ (waitingB true).placeCore 1 = none ∧
      (waitingB true).spinVictims 1 = some [0] := by
  refine ⟨by decide, by decide, by decide, by decide, by decide, by decide, by decide, by decide +kernel, by decide +kernel,
    by decide +kernel, by decide +kernel, ?_, by decide +kernel⟩
  rintro a b h
  have h : (a = 1 ∧ b = 0) ∨ (a = 0 ∧ b = 1) := by rcases h with h | h <;> cases h <;> simp
  rcases h with ⟨rfl, rfl⟩ | ⟨rfl, rfl⟩ <;> decide +kernel
/-! Stops, faults, translations, functions and trust. -/

/-- A context whose stop has been asked for, exported or not, running or not. -/
def stopped (run mig : Bool) : State := (waitingB false).updContext 96 0 fun k => { k with running := run, migrated := mig, debugStop := true }
/-- The same with block 0 saved. -/
def savedB : State := let s := stopped false false
  { s with blocks := s.blocks.map fun k => if k.index == 0 then { k with phase := .saved } else k }

theorem test_meets_StopsAndResumes :
    (base.queues.find? fun k => k.id == 0).isSome = true ∧ (base.queue 0).slot.isSome = true ∧
    windowed.queueQuiet 0 = false ∧ (windowed.queue 0).slot.isSome = true ∧ (savedB.queue 0).preempted = false ∧
    (savedB.blocksIn 0 .resident).isEmpty = true ∧ (savedB.queue 0).slot.isSome = true ∧ (base.queue 1).slot = none ∧
    (∀ x : Bool × Bool, x = (false, false) ∨ x = (true, false) ∨ x = (false, true) →
      ∃ k, Holds (stopped x.1 x.2) 96 0 k ∧ k.migrated = x.2 ∧ k.running = x.1) ∧
    (let s := savedB
     let b := (s.wave 0).block
     let l := s.launch (s.block b).launch
     (s.context? l.fn l.asid).isSome = true ∧ (s.context l.fn l.asid).debugStop = true ∧
     (s.context l.fn l.asid).running = false ∧ (s.context l.fn l.asid).exporting = false ∧
     (s.context l.fn l.asid).migrated = false ∧ (s.context l.fn l.asid).ended = false ∧ (s.frag r0).isSome = true ∧
     r0.wave ∈ (s.block b).waves ∧
     (s.queue l.queue).slot.isSome = true ∧ (s.block b).phase = .saved ∧ s.placeCore b = some 0) ∧
    0 < base.launches.length ∧ (base.launch 0).phase = .running ∧ (base.launch 0).ending = {} ∧ (∀ k ∈ base.cores, k.copies = []) := by
  refine ⟨by decide, by decide, by decide, by decide, by decide, by decide, by decide, by decide, ?_, by decide +kernel⟩
  rintro x (rfl | rfl | rfl) <;> exact ⟨_, rfl, rfl, rfl⟩

/-- A module that holds the record of context 0 of function 96, and that context itself or not. -/
def recorded (here : Bool) : State :=
  let s := stopped false true
  { s with
    records := [{ fn := 96, asid := 0, context := s.context 96 0, queues := [], launches := s.launches, blocks := s.blocks
                  waves := s.waves, engines := [], lapse := 5, at' := 0 }]
    contexts := if here then s.contexts else [] }

theorem test_meets_StopsAndResumes_records :
    (∃ k r, Holds (recorded true) 96 0 k ∧ k.migrated = true ∧
      (recorded true).records.find? (fun r => r.fn == 96 && r.asid == 0) = some r) ∧
    (∃ r, (recorded false).context? 96 0 = none ∧ (recorded false).records.find? (fun r => r.fn == 96 && r.asid == 0) = some r) ∧
    base.records.find? (fun r => r.fn == 96 && r.asid == 0) = none := ⟨⟨_, _, rfl, rfl, rfl⟩, ⟨_, rfl, rfl⟩, rfl⟩

/-- A core with a history of wave 0 and a result to replay. -/
def historied : State := (wide base).updCore 0 fun c => { c with
  history := [{ cycle := 0, mark := 0, wave := 0, state := base.wave 0 }]
  replay := [{ quadrant := 0, issued := 0, instr := .nop, lane := 0, operands := [], result := [7], pc := here, wave := 0
               slice := .c, eseq := 0 }] }
/-- Two blocks under a screen: over, or late. -/
def screened (late : Bool) (sig : Dword) : State := { base with
  time := 1000 * Config.unitsPerTick
  blocks := [{ launch := 0, index := 0, phase := .retired }, { launch := 0, index := 0, phase := if late then .waiting else .retired, signature := sig }]
  maint := { base.maint with screens := [{ id := 0, primary := 0, shadow := some 1 }] } }
/-- A dump is asked for with a descriptor of a destination and sources. -/
def dumping (dst : Nat) (key : Bool) (run : Bool) : State :=
  let s := base.devWrite 0x2000 (bytesOfNat 8 dst ++ bytesOfNat 4 0x1000 ++ [0x80, 1, 0, 0, 0x2F])
  let s := s.updContext 96 0 fun k => { k with running := run }
  { s with functions := if key then [{ fn := 96, dumpKey := some 0 }] else []
           maint := { s.maint with dmpst := 1, dmpFn := 96, dmpAsid := 0, dmpdLo := 0x2000, dmpdHi := 0 } }
/-- What a dump comes to: its descriptor, the key, and whether it must wait. -/
def dumps (s : State) (bad key run : Bool) : Bool :=
  match s.readVirt s.maint.dmpFn s.maint.dmpAsid (pair s.maint.dmpdLo s.maint.dmpdHi).toNat 64 with
  | .ok bs => (Dump.of bs).bad == bad && (s.function (Dump.of bs).fn).dumpKey.isSome == key && s.dumpRunning (Dump.of bs) == run
  | _ => false

theorem test_meets_ReliabilityEvents :
    (∃ snap, historied.coreEnabled 0 = true ∧ 0 ∈ historied.residents 0 ∧ 0 < historied.waves.length ∧ (historied.wave 0).retired = false ∧
      (historied.core 0).performed = [] ∧ (historied.core 0).inputs = [] ∧
      (historied.core 0).history.find? (fun h => h.wave == 0 && decide (historied.cycle - 128 ≤ h.cycle)) = some snap ∧
      snap.state.c.frag 0 = some (frag0 base)) ∧
    (∃ r, ((historied.core 0).replay.filter fun x => x.quadrant == 0)[0]? = some r ∧ r.result = [7]) ∧
    (∀ x : Bool × Dword, x = (false, 0) ∨ x = (false, 1) ∨ x = (true, 0) →
      ∃ y, (screened x.1 x.2).maint.screens.find? (fun y => y.id == 0) = some y ∧
        (screened x.1 x.2).screenDone y = !x.1 ∧ (screened x.1 x.2).screenLate y = x.1 ∧
        (((screened x.1 x.2).block y.primary).signature = ((screened x.1 x.2).block (y.shadow.getD 0)).signature ↔ x.2 = 0)) ∧
    (wide base).coreEnabled 207 = true ∧ base.maint.stestBusy = false ∧ base.coreEnabled 207 = false ∧
    base.maint.dmpst.toNat % 4 ≠ 1 ∧ (dumping 0 true false).maint.dmpst.toNat % 4 = 1 ∧
    (∀ p : Nat × Bool × Bool, p = (1, true, true) ∨ p = (0, false, true) ∨ p = (0, true, true) ∨ p = (0, true, false) →
      dumps (dumping p.1 p.2.1 p.2.2) (p.1 == 1) p.2.1 p.2.2 = true) ∧
    (let s := { savedB with maint := { savedB.maint with stestBusy := true, stestRun := 3 } }
     s.maint.stestBusy = true ∧ s.residents s.maint.stestRun = []) ∧
    base.inRecovery = false ∧ ({ base with trust := { base.trust with boot := .recovery 1 } } : State).inRecovery = true := by
  refine ⟨⟨{ cycle := 0, mark := 0, wave := 0, state := base.wave 0 }, by decide +kernel⟩, ⟨_, rfl, rfl⟩, ?_, by decide +kernel, rfl, by decide +kernel, by decide, by decide +kernel, ?_, by decide +kernel⟩
  · rintro x (rfl | rfl | rfl) <;> exact ⟨_, rfl, by decide +kernel, by decide +kernel, by decide +kernel⟩
  · rintro p (rfl | rfl | rfl | rfl) <;> decide +kernel

/-- The cache of wave 0 holds the line of word 5. -/
def stackCached : State := onWave (fun w => { w with cache := [{ word := 5, bytes := [] }] }) base

theorem test_meets_ReliabilityEvents_ecc :
    base.eccAbsent (.array 8 0 1) = true ∧ (wide base).eccAbsent (.array 8 0 1) = false ∧ eccHome (.device 3) = some ⟨.dev, 3⟩ ∧
    stackCached.eccAbsent (.stack 0 5 1) = false ∧ 0 < stackCached.waves.length ∧ (∃ k ∈ (stackCached.wave 0).cache, k.word = 5) ∧
    (let s := { wide base with lines := [{ core := some 0, cluster := none, key := ⟨.dev, 1⟩, bytes := List.replicate 32 7, written := 0 }] }
     s.eccAbsent (.array 8 0 1) = false ∧ ∃ x ∈ s.lines, x.core = some (coreOfLoc 0) ∧ x.key = { place := .dev, idx := 1 }) := by
  refine ⟨by decide +kernel, by decide +kernel, rfl, rfl, by decide, ⟨_, List.mem_cons_self .., rfl⟩, by decide +kernel, _, List.mem_cons_self .., by decide, rfl⟩

/-- A core with a handle in use, an invalid one, and a cached copy of sector 8; a waiting request of wave 0. -/
def cached : State :=
  let s := handled0 1
  { s with lines := [{ core := none, cluster := none, key := ⟨.dev, 8⟩, bytes := List.replicate 32 7, written := 1 }]
           faults := [{ id := 5, die := 2, fn := 96, asid := 0, va := 0, write := false, who := .frag r0 }] }
/-- Context 0 of function 96 runs and samples, or does not. -/
def sampled (on : Bool) : State := base.updContext 96 0 fun k => { k with trace := { k.trace with ctl := if on then 2 else 0 } }

theorem test_meets_CoherenceAndTranslation :
    cached.inRecovery = false ∧ (∀ w ∈ cached.wavesOf 96 0, (cached.wave w).loads = []) ∧ cached.egress = [] ∧
    ((cached.core 0).handle 0).current 0x400 = ((cached.core 0).handle (0x400 % 1024)).current 0x400 ∧
    (∃ h : Word, ((cached.core 0).handle (h.toNat % 65536 % 1024)).current (h.toNat % 65536) = true ∧ h.toNat / 65536 % 256 = 0) ∧
    ((cached.core 0).handle 1).current 1 = false ∧
    (∃ x, cached.lines.filter (fun x => x.core == none && x.cluster == none && x.key.idx == 8) = [x] ∧ x.key.place = .dev ∧
      x.launch = none ∧ x.written.getLsbD 0 = true ∧ x.written.getLsbD 1 = false) ∧
    (∀ x ∈ cached.lines, (x.core == none && x.cluster == none && x.key.idx == 9) = false) ∧ cached.memories.dev.wf = true ∧
    cached.memories.host.wf = true ∧ (∀ f ∈ cached.refused, f.die ≠ 0) ∧ (∀ q ∈ cached.queues, q.reports = []) ∧
    (∃ r, cached.faults.find? (fun f => f.die == 2 && f.id == 5) = some r ∧ r.who = .frag r0) ∧ r0.wave < cached.waves.length ∧
    (∀ on : Bool, ∃ k, Holds (sampled on) 96 0 k ∧ k.running = true ∧ k.trace.ctl.getLsbD 1 = on ∧
      ((sampled on).residents 0).find? (fun w => ((sampled on).launch ((sampled on).launchOf w)).fn == 96 &&
        ((sampled on).launch ((sampled on).launchOf w)).asid == 0 && !((sampled on).wave w).retired) = some 0) := by
  refine ⟨rfl, by decide, rfl, rfl, ⟨0x400, by decide +kernel⟩, by decide, ⟨_, rfl, rfl, rfl, by decide, by decide⟩, by decide, by decide +kernel, by decide,
    by decide, by decide, ⟨_, rfl, rfl⟩, by decide, ?_⟩
  intro on; cases on <;> exact ⟨_, rfl, rfl, rfl, by decide⟩

/-- VF 3 is enabled on cluster 0, slot 0, ASID 0, node 1; VF 5 is not, and has what `g` gives it. -/
def vfs (g : Function) (b : State := base) : State :=
  let s := held hold0 b
  { s with functions := [{ fn := 3, cfg := 0x1801, clusLo := 1, vfq := 0x100, asids := 0x10000 }, g], mregs := { s.mregs with vfsel := 3 } }

theorem test_meets_VfRegisters :
    (∀ p : Nat × Word, p = (0x202, 2) ∨ p = (0x201, 0x1803) →
      (let s := vfs { fn := 5 }
       let f := s.function 3
       (f.setVfReg p.1 (p.2 &&& vfMask p.1)).inLimits = true ∧ f.en = true ∧ p.1 ≠ 0x207 ∧
       ∃ b < 32, (p.1 = 0x201 → b ≠ 0) ∧ (vfMask p.1).getLsbD b = true ∧ (f.vfReg p.1).getLsbD b ≠ p.2.getLsbD b)) ∧
    (∀ p : Function × Word, p = ({ fn := 5, clusLo := 1 }, 1) ∨ p = ({ fn := 5, vfq := 0x100 }, 1) ∨
      p = ({ fn := 5, asids := 0x10000 }, 1) ∨ p = ({ fn := 5 }, 3) ∨ p = ({ fn := 5 }, 0x1801) ∨ p = ({ fn := 5 }, 1) →
      (let s := vfs p.1
       let f := s.function 5
       (f.setVfReg 0x201 (p.2 &&& vfMask 0x201)).inLimits = true ∧ f.en = false ∧ p.2.getLsbD 0 = true ∧
       ((s.writeVf 5 0x201 p.2).isSome = true ↔ p = ({ fn := 5 }, 1)))) ∧
    (let s := vfs { fn := 5 } (setS 4 0x202 (setS 5 2 base))
     s.mregs.vfsel.toNat = 3 ∧ s.Issues (ctx s) ∧ (∃ h, (ctx s).Settled h) ∧ ((ctx s).uval (.s 4)).toNat = 0x202 ∧
       (ctx s).uval (.s 5) = 2) := by
  refine ⟨?_, ?_, ⟨rfl, issues _ _ rfl rfl, ⟨_, rfl, rfl⟩, by decide, by decide⟩⟩
  · rintro p (rfl | rfl)
    · exact ⟨by decide, by decide, by decide, 0, by decide⟩
    · exact ⟨by decide, by decide, by decide, 1, by decide⟩
  · rintro p (rfl | rfl | rfl | rfl | rfl | rfl) <;> decide

/-- VF 3 is torn down, with a request of its own that outlives it or none; a port in its sixteenth failure. -/
def parted (orphan : Bool) : State := { vfs { fn := 5, tear := some { since := 0 } } with
  peers := [{ id := 0, fn := if orphan then 5 else 3, node := 9, off := 0, ask := .load 4, since := 0, st := .orphan },
    { id := 1, fn := 3, node := 9, off := 0, ask := .load 4, since := 0 }]
  ports := (List.range 36).map fun i => { fails := if i = 0 then 15 else 0 } }

theorem test_meets_PartitionEvents :
    (isVf 5 = true ∧ ((vfs { fn := 5 }).function 5).en = false ∧ ((vfs { fn := 5 }).function 3).tear = none ∧
      (∃ t, (vfs { fn := 5 }).writeVf 5 0x201 (((vfs { fn := 5 }).function 5).cfg ||| 1) = some t) ∧
      (∃ t, (vfs { fn := 5 }).writeVf 3 0x201 (((vfs { fn := 5 }).function 3).cfg &&& 0xFFFFFFFE) = some t) ∧
      ∃ t, (vfs { fn := 5 }).writeVf 3 0x201 (((vfs { fn := 5 }).function 3).cfg ||| 4) = some t) ∧
    (∀ o : Bool, ((parted o).function 5).tear = some { since := 0 } ∧ (parted o).quarantineOver 5 { since := 0 } = !o) ∧
    (∃ k, Holds base 96 0 k) ∧ base.up = true ∧ (base.context? 96 0).isSome = true ∧
    (base.inRecovery = false ∧ base.presents 96 = true) ∧
    ((sysWritePriv 0x200).isSome = true ∧ ∃ t, base.writeSys 96 0 2 0x200 3 = some t) ∧
    (∃ t a, (vfs { fn := 5 }).peerAccess fadd32 5 0 (.load 4) = (t, .done a)) ∧
    (∀ late : Bool, ∃ p, { parted false with time := if late then 2000 * Config.unitsPerTick else 0 }.peers[1]? = some p ∧
      p.st = .pending ∧ (p.since + 2000 * Config.unitsPerTick ≤
        { parted false with time := if late then 2000 * Config.unitsPerTick else 0 }.time ↔ late = true)) ∧
    (∃ p, { parted false with peers := [{ id := 0, fn := 3, node := 9, off := 0, ask := .load 4, since := 0, st := .answered .refused }] }.peers[0]? =
      some p ∧ p.st = .answered .refused) ∧
    (∃ p, (parted false).ports[0]? = some p ∧ 16 ≤ p.fails + 1) ∧ (∃ p, (parted false).ports[35]? = some p ∧ p.fails + 1 < 16) ∧
    (∀ n : Nat, n = 2 ^ 32 ∨ n = 2 ^ 32 - 1 →
      ∃ p, { parted false with ports := [{ recvSlots := n, sendSlots := n, recvEpoch := 1, sendEpoch := 1 }] }.ports[0]? = some p ∧
        (p.recvEpoch ≠ 0 ∧ 2 ^ 32 * p.recvEpoch ≤ p.recvSlots ↔ n = 2 ^ 32) ∧
        (p.sendEpoch ≠ 0 ∧ 2 ^ 32 * p.sendEpoch ≤ p.sendSlots ↔ n = 2 ^ 32)) ∧
    (vfs { fn := 5 }).inRecovery = false ∧ ({ base with trust := { base.trust with boot := .recovery 1 } } : State).inRecovery = true := by
  refine ⟨⟨by decide, by decide, by decide, ⟨_, rfl⟩, ⟨_, rfl⟩, _, rfl⟩, ?_, ⟨_, rfl⟩, by decide, by decide, by decide,
    ⟨by decide, _, rfl⟩, ⟨_, _, rfl⟩, ?_, ⟨_, rfl, rfl⟩, ⟨_, rfl, by decide⟩, ⟨_, rfl, by decide⟩, ?_, rfl, rfl⟩
  · intro o; cases o <;> decide +kernel
  · intro l; cases l <;> exact ⟨_, rfl, rfl, by decide +kernel⟩
  · rintro n (rfl | rfl) <;> exact ⟨_, rfl, by decide, by decide⟩

/-- A module in recovery, its command running or not. -/
def recovering (busy : Bool) (len : Word) : State := { base with
  trust := { base.trust with boot := .recovery 1, rbusy := busy, rlen := len } }
/-- Functions 96 and 3 with a session, or a handshake; VF 3 torn down or not. -/
def trusted (tear : Option Teardown) : State := { vfs { fn := 5 } with
  functions := [{ fn := 3, cfg := 1, tear := tear }]
  trust := { base.trust with negotiated := [96], handshakes := [96], sessions := [96, 3] } }

theorem test_meets_TrustEvents : base.inRecovery = false ∧ base.trust.refusal = none ∧
    ({ base.trust with image := { base.trust.image with sv := 3 }, svmin := 4 } : Trust).refusal = some 3 ∧
    (recovering true 0).inRecovery = true ∧ (recovering true 0).trust.rbusy = true ∧ (recovering true 0).trust.rreset = false ∧
    (∀ n : Word, n = 4096 ∨ n = 0x2000000 → n.toNat % 4096 = 0 ∧ 4096 ≤ n.toNat ∧ n.toNat ≤ 2 ^ 25 ∧
      (recovering false n).trust.rbusy = false ∧ (recovering false n).inRecovery = true ∧ (recovering false n).trust.rlen = n) ∧
    (recovering false 4095).trust.rlen.toNat % 4096 ≠ 0 ∧ base.presents 3 = false ∧ base.presents 96 = true ∧
    (96 ∉ base.trust.negotiated ∧ 96 ∉ base.trust.handshakes ∧ 96 ∉ base.trust.sessions) ∧
    (∀ t : Option Teardown, t = none ∨ t = some { since := 0 } →
      (trusted t).presents 96 = true ∧ (trusted t).presents 3 = true ∧ 96 ∈ (trusted t).trust.negotiated ∧
      96 ∈ (trusted t).trust.handshakes ∧ 96 ∈ (trusted t).trust.sessions ∧ 3 ∈ (trusted t).trust.sessions ∧
      ((trusted t).function 3).tear = t) ∧
    (∃ d : List Byte, d.length = 48) ∧ ∃ d : List Byte, d.length = 32 := by
  refine ⟨by decide, by decide, by decide, by decide, by decide, by decide, ?_, by decide, by decide, by decide, by decide, ?_,
    ⟨List.replicate 48 0, by decide⟩, List.replicate 32 0, by decide⟩
  · rintro n (rfl | rfl) <;> decide
  · rintro t (rfl | rfl) <;> decide

/-- The policy core takes a while over the next request of functions 96 and 3, has one unfinished, or neither. -/
def vendors (slow busy : Bool) : State := let s := trusted none
  { s with trust := { s.trust with
    slow := if slow then [96, 3] else [], unfinished := if busy then [(96, 1, []), (3, 2, [])] else [] } }

theorem test_meets_TrustEvents_turns :
    (∀ ok : Bool, ({ base with trust := { base.trust with fusesOk := ok } } : State).trust.fusesOk = ok) ∧
    (∀ p : Nat × Option Nat, p = (4, none) ∨ p = (3, some 3) →
      (let s : State := { base with trust := { base.trust with svFuse := 4, image := { base.trust.image with sv := p.1 } } }
       let fused : Trust := { s.trust with svmin := s.trust.svFuse, keyHashes := s.trust.keyFuses }
       s.trust.fusesOk = true ∧ fused.refusal = p.2)) ∧
    (∀ n : Word, n = 0 ∨ n = 0x2001000 → n.toNat < 4096 ∨ 2 ^ 25 < n.toNat) ∧
    (∀ p : Bool × Bool, p = (false, false) ∨ p = (true, false) ∨ p = (false, true) →
      (vendors p.1 p.2).presents 96 = true ∧ (vendors p.1 p.2).presents 3 = true ∧ 96 ∈ (vendors p.1 p.2).trust.sessions ∧
      3 ∈ (vendors p.1 p.2).trust.sessions ∧ (vendors p.1 p.2).vendorBusy 96 = p.2 ∧ (vendors p.1 p.2).vendorBusy 3 = p.2 ∧
      (96 ∈ (vendors p.1 p.2).trust.slow ↔ p.1 = true) ∧ (3 ∈ (vendors p.1 p.2).trust.slow ↔ p.1 = true) ∧
      ((vendors p.1 p.2).function 3).tear = none) := by
  refine ⟨fun _ => rfl, ?_, ?_, ?_⟩
  · rintro p (rfl | rfl) <;> decide
  · rintro n (rfl | rfl) <;> decide
  · rintro p (rfl | rfl | rfl) <;> decide
/-! Steps. -/

/-- A word where the next step fetches. -/
def running (n w : Nat) : State := State.reset.withFetchWord n w

theorem test_meets_StepRunsDecoded :
    (let s := running 32 0x01000000
     let now := { s with agenda := [] }
     s.agenda = .issue r0 :: [] ∧ ∃ c pa, Ctx.of? now r0 = some c ∧ c.mayIssue = true ∧ c.egressLets = true ∧ c.pending = none ∧ c.f.hold = none ∧
       c.f.park = none ∧ now.translate (some c.w.core) c.fn c.asid { fetch := true, priv := c.priv } c.f.pc.toNat = .ok pa ∧
       now.poisoned .dev pa = false ∧ decodeWord (wordOfBytes (now.readBytes .dev pa 4)) = .ok .nop ∧
       Instr.nop.wellFormed = true ∧ c.block.shadow = false) ∧
    (let s := running 128 0x9
     let now := { s with agenda := [] }
     s.agenda = .command 0 0 :: [] ∧ ∃ x pa p, now.xctx? 0 0 = some x ∧ x.mayRun = true ∧ x.phase = .running ∧ x.pc < 2 ^ 53 ∧
       now.engineRead x x.pc = (.ok pa, p) ∧ decodeCommandBytes (now.readBytes p pa 16) = some .xfence ∧
       Instr.xfence.wellFormed = true) ∧
    (let s := { running 32 0x01000000 with agenda := [.cycle [r0] []] }
     s.agenda = .cycle [r0] [] :: [] ∧ ({ s with agenda := [] }.issuing r0).isSome = true) ∧
    (let s := { base with agenda := [], trust := { base.trust with boot := .tripped } }
     s.agenda = [] ∧ s.trust.boot = .tripped) ∧
    (running 32 0x01000000).trust.boot ≠ .tripped ∧ Action.event .thermalTrip ≠ Action.event .moduleReset := by
  refine ⟨⟨rfl, _, _, rfl, rfl, rfl, rfl, rfl, rfl, rfl, rfl, rfl, rfl, rfl⟩, ⟨rfl, _, _, _, rfl, rfl, rfl, by decide, rfl, rfl, rfl⟩, ⟨rfl, rfl⟩, ⟨rfl, rfl⟩, by decide, by decide⟩

theorem test_meets_RoundTrip : Instr.wellFormed (.iadd (.v 1) (.v 2) (.v 3)) = true ∧
    (encodeWord (.iadd (.v 1) (.v 2) (.v 3))).isSome = true ∧ (encodeCommand .xfence).isSome = true := by decide

theorem test_meets_MemoryFormKept : base.memWf = true ∧ (∃ t, step (running 32 0x01000000) = .next t) := by
  refine ⟨by decide +kernel, _, rfl⟩

/-- R113: the placed NOP runs, and its fragment stands at the next word one cycle later. -/
theorem test_step_nop : (match step (running 32 0x01000000) with
    | .next t => decide ((frag0 t).pc = here + 4 ∧ t.cycle = 1)
    | _ => false) = true := by decide +kernel

/-! Completion of SPLIT, EXIT and the commits. -/

theorem test_meets_SplitExitAndCommitsComplete_split : Meets splitting { illegal := 1#11 == 0#11, operand := !(ctx splitting).predOk 1, regs := [.p 1] } ∧
    (ctx splitting).f.stack.length < 16 := ⟨meets rfl rfl (by decide), by decide⟩

theorem test_meets_SplitExitAndCommitsComplete_exit : Meets base { guard := true, noRegion := true } := meets rfl rfl rfl

/-- The commit that waits for what a peer is asked: the answer has come. -/
def moved : State := { held { hold0 with arrived := true, reqs := [0] } base with
  peers := [{ id := 0, fn := 96, node := 5, off := 0, ask := .load 0, since := 0, st := .answered (.data []) }] }

theorem test_meets_SplitExitAndCommitsComplete_commits :
    (let c := ctx committing
     committing.Issues c ∧ (∃ h, c.Settled h ∧ h.arrived = false ∧ h.seq = 9) ∧ c.allHelpers = false ∧
     (∀ v : Nat, v = 1 ∨ v = 5 → c.s.commitReady c.r.wave v 9 = true ∧ (c.out.commit c.r.wave v 9 false).2 = []) ∧
     ∀ p ∈ c.w.pend, 9 ≤ p.seq) ∧
    (let c := ctx moved
     moved.Issues c ∧ (∃ h, c.Settled h ∧ h.arrived = true ∧ h.reqs = [0]) ∧ c.allHelpers = false ∧
     c.s.peerAnswer? 0 = some (.data [])) ∧
    (let s := onFrag (fun f => { f with mask := 0 }) (held hold0 base)
     s.Issues (ctx s) ∧ (∃ h, (ctx s).Settled h) ∧ (ctx s).allHelpers = true) := by
  refine ⟨⟨issues _ _ rfl rfl, ⟨_, ⟨rfl, rfl⟩, rfl, rfl⟩, by decide, ?_, by decide⟩,
    ⟨issues _ _ rfl rfl, ⟨_, ⟨rfl, rfl⟩, rfl, rfl⟩, by decide, rfl⟩, issues _ _ rfl rfl, ⟨_, rfl, rfl⟩, by decide⟩
  rintro v (rfl | rfl) <;> exact ⟨by decide, rfl⟩

/-! Queues, load returns and retirement. -/

def filled (n : Nat) (v : Word) : QEntry := { id := n, st := .filled (Vec.build fun _ => v) }
/-- LQ0 of a decoupled wave, whose address slice has ended or not. -/
def queues (es : List QEntry) (gone : Bool := false) : State := onWave (fun w => { w with
  lq := w.lq.set 0 { entries := es, next := 6 }, a := w.a.map fun st => { st with ended := gone } }) decoupled

/-- The addition LQ0 + LQ0. -/
def addition (d : Spec) (s : State) : LaneForm :=
  intForm (ctx s) (.iadd d (.lq 0) (.lq 0)) d [.lq 0, .lq 0] false true fun _ x => x.getD 0 0 + x.getD 1 0

/-- It passes its checks, and what its sources come to. -/
def adds (d : Spec) (s : State) : Bool :=
  passesB (ctx s) ((addition d s).op.need (ctx s)) && (ctx s).w.lq.length == 4 && (ctx s).w.sq.length == 2
def claimed (d : Spec) (s : State) : Claimed := claim (ctx s) (ctx s).w (reads (addition d s).op)

theorem adds_meets {d : Spec} {s : State} (h : adds d s = true) (hi : s.issuer = .frag r0)
    (k : ((s.waves[0]?).bind fun w => (w.stream .c).frag 0).isSome = true) :
    s.Issues (ctx s) ∧ (ctx s).w.lq.length = 4 ∧ (ctx s).w.sq.length = 2 ∧
      addition d s ∈ laneForms (ctx s) d (.lq 0) (.lq 0) 0 0 0 0 0 ∧ (ctx s).Passes ((addition d s).op.need (ctx s)) := by
  simp only [adds, Bool.and_eq_true, beq_iff_eq] at h
  exact ⟨issues s r0 hi k, h.1.2, h.2, by simp [laneForms, intForms, addition], passes h.1.1⟩

def three : List QEntry := [filled 3 5, filled 4 9, filled 5 1]
def fullSq (n : Nat) : State := onWave (fun w => { w with
  sq := w.sq.set 0 { entries := (List.range n).map (filled · 0), next := n } }) (queues three)

theorem test_queue_sources :
    adds (.v 4) (queues three) = true ∧ adds (.sq 0) (fullSq 7) = true ∧ adds (.sq 0) (fullSq 8) = true ∧
    adds (.sq 0) (queues three true) = true ∧
    (match claimed (.v 4) (queues three) with
      | .got _ w => (w.fifo (.lq 0)).entries.map (·.id) == [5]
      | _ => false) = true := by decide

/-- Heads without data for the sources: none, one not filled, a poisoned and a marked one behind a filled one. -/
def noData (st : Option QState) (gone : Bool := false) : State :=
  queues (match st with
    | none => []
    | some q => [filled 3 5, { id := 4, st := q }]) gone
def stuckAt (st : Option QState) (gone : Bool := false) : Option (Option QState) :=
  match claimed (.v 4) (noData st gone) with
  | .stuck _ h _ => some (h.map (·.st))
  | _ => none

theorem test_meets_ControlQueue_queues :
    (∀ p : Spec × State, p = (.v 4, queues three) ∨ p = (.sq 0, fullSq 7) ∨ p = (.sq 0, fullSq 8) ∨
        p = (.sq 0, queues three true) →
      adds p.1 p.2 = true ∧ p.2.issuer = .frag r0 ∧ (∃ vals w, claimed p.1 p.2 = .got vals w) ∧
      ∀ x ∈ ((ctx p.2).w.fifo (.sq 0)).entries, x.id < ((ctx p.2).w.fifo (.sq 0)).next) ∧
    HasRoom (ctx (fullSq 7)).w (.sq 0) 1 ∧ ¬ HasRoom (ctx (fullSq 8)).w (.sq 0) 1 ∧
    (∀ g : Bool, adds (.v 4) (noData none g) = true ∧ stuckAt none g = some none) ∧
    ∀ q : QState, q = .unfilled ∨ q = .poisoned .protection 2 31 16 12 ∨ q = .marked none →
      adds (.v 4) (noData (some q)) = true ∧ stuckAt (some q) = some (some q) := by
  refine ⟨?_, (by decide : ((ctx (fullSq 7)).w.fifo (.sq 0)).entries.length + 1 ≤ 8),
    (by decide : ¬ ((ctx (fullSq 8)).w.fifo (.sq 0)).entries.length + 1 ≤ 8), by decide, ?_⟩
  · rintro p (rfl | rfl | rfl | rfl) <;> exact ⟨by decide, rfl, ⟨_, _, rfl⟩, by decide⟩
  · rintro q (rfl | rfl | rfl) <;> decide

/-- R46, R47: both heads are dequeued; the tail of SQ0 is reserved and filled, waited for, or discarded. -/
theorem test_queue_results :
    vreg (after (addition (.v 4) (queues three)).i (queues three)) 4 31 = 14 ∧
    (((after (addition (.sq 0) (fullSq 7)).i (fullSq 7)).wave 0).fifo (.sq 0)).entries.map (·.id) = [0, 1, 2, 3, 4, 5, 6, 7] ∧
    (frag0 (after (addition (.sq 0) (fullSq 8)).i (fullSq 8))).park = some .queue ∧
    (((after (addition (.sq 0) (fullSq 8)).i (fullSq 8)).wave 0).fifo (.lq 0)).entries = three ∧
    ((after (addition (.sq 0) (queues three true)).i (queues three true)).wave 0).sqdrop = 1 := by decide

/-- R46, R50, R51: what an unfilled, a missing and a poisoned head come to. -/
theorem test_queue_stalls :
    (frag0 (after (addition (.v 4) base).i (noData (some .unfilled)))).park = some .queue ∧
    (frag0 (after (addition (.v 4) base).i (noData none))).park = some .queue ∧
    ((after (addition (.v 4) base).i (noData none true)).launch 0).phase = .ending ∧
    ((after (addition (.v 4) base).i (noData (some (.poisoned .protection 2 31 16 12)))).launch 0).phase = .ending := by
  decide

/-- A load of a tile byte or pair returns to `d`; its sector is poisoned or sound. -/
def returning (d : LoadDest) (bad : Bool) (g : Stream → Stream := id) : State :=
  let s := (queues [{ id := 5, st := .unfilled }]).writeBytes (.scr 0) 65534 [0x01, 0x80]
  let s := onStream g (onWave (fun w => { w with loads := [{ load0 with dest := d }], seq := 1 }) s)
  if bad then s.setPoison ⟨.scr 0, 2047⟩ true else s

/-- SHLD of the 48 bytes of a shape of one dimension is in flight. -/
def shaping (nd : Byte) : State :=
  let s := base.devWrite 64 (bytesOfNat 4 7 ++ List.replicate 36 0 ++ [1, 0, 0, 0, 0, nd, 0, 0])
  after (.shld (.s 4) 0 3) (setS 5 0 (setS 4 64 s))

/-- Its bytes and place as `LoadReturns` meets them. -/
def mayReturnB (s : State) (bad : Bool) : Bool :=
  match (s.wave 0).loads with
  | [ld] => !s.behind 0 ld.slice ld.fence && ld.fence == 0 && s.egress.isEmpty &&
      (ld.lanes.any fun x => (List.range ld.size).any fun k => (s.loadByte 0 (some ld.id) x.place (x.addr + k)).2) == bad
  | _ => false

/-- A region is open since order number `n`. -/
def opening (n : Nat) (st : Stream) : Stream :=
  { st with region := some { entryPc := here, entry := 0, mask := 0, ctl := {}, tails := [], opened := n } }

theorem test_meets_LoadReturns_forms :
    (∀ p : LoadDest × Bool, p = (.uni 3, false) ∨ p = (.queue 0 [5], false) ∨ p = (.queue 0 [5], true) ∨ p = (.vec 31, true) →
      mayReturnB (returning p.1 p.2) p.2 = true) ∧
    (.queue 0 [5] : LoadDest) = loadDest (.lq 0) [5] ∧ ((returning (.uni 3) false).wave 0).lq.length = 4 ∧
    ((returning (.uni 3) false).wave 0).sq.length = 2 ∧
    3 + regsOf load0.size ≤ ((returning (.uni 3) false).wave 0).c.regs.s.length ∧
    (((returning (.vec 31) true).wave 0).c.frag load0.entry).isSome = true ∧
    (∀ n : Nat, n = 0 ∨ n = 1 → ∃ g, (((returning (.vec 31) true (opening n)).wave 0).c).region = some g ∧ g.opened = n) ∧
    (∀ n : Byte, n = 1 ∨ n = 6 → mayReturnB (shaping n) false = true ∧ ∃ x, (shaping n).context? 96 0 = some x ∧ 3 < x.shapes.length) := by
  refine ⟨?_, by decide, by decide, by decide, by decide, by decide, ?_, ?_⟩
  · rintro p (rfl | rfl | rfl | rfl) <;> decide +kernel
  · rintro n (rfl | rfl) <;> exact ⟨_, rfl, rfl⟩
  · rintro n (rfl | rfl) <;> exact ⟨by decide +kernel, _, rfl, by decide⟩

/-- A wave whose stream has ended at cycle 0, alone in its block or not. -/
def retiring (now counter : Nat) (shadow pair : Bool) : State :=
  let s := onWave (fun w => { w with exitedAt := some 0, c := { w.c with frags := [], ended := true } }) base
  let s := (s.updLaunch 0 fun l => { l with counter := counter }).updBlock 0 fun b =>
    { b with shadow := shadow, waves := if pair then [0, 1] else [0] }
  { s with cycle := now, waves := s.waves ++ if pair then [base.wave 0] else [] }

/-- What `WaitsEnd` says of its wave once it has retired. -/
def retired (s : State) : State :=
  let c := (s.commit 0 1 (s.wave 0).seq true).1
  { c with
    launches := c.launches.set 0 { c.launch 0 with backing := (c.launch 0).backing.filter (· != (s.wave 0).backing) }
    waves := c.waves.set 0 { c.wave 0 with
      retired := true, latch := none, holdsSlot := false, cache := [], priv := [], sqdrop := (s.wave 0).sqdrop } }

/-- The premises about the state; the last wave of the block or not. -/
def retires (s : State) (last : Bool) : Bool :=
  let wv := s.wave 0
  wv.exitedAt == some 0 && !wv.retired && wv.frags.isEmpty && wv.pend.isEmpty && wv.privPend.isEmpty && wv.loads.isEmpty &&
    wv.holdsSlot && !wv.decoupled && s.blockOf 0 == 0 && s.launchOf 0 == 0 && 0 < s.blocks.length && 0 < s.launches.length &&
    !(s.block 0).stopping && (s.launch 0).phase == .running && s.commitReady 0 1 wv.seq && (retired s).sweepReady 0 == last &&
    (s.launch 0).prov.all (·.key.place == .dev)

theorem test_meets_WaitsEnd_retirement :
    (retires (retiring 127 1 false false) true && retires (retiring 128 1 false false) true &&
      retires (retiring 128 2 false false) true && retires (retiring 128 2 true false) true &&
      retires (retiring 128 2 false true) false) = true ∧
    ∃ x ∈ ((retiring 128 2 false true).block 0).waves, x ≠ 0 ∧ ((retiring 128 2 false true).wave x).retired = false := by
  decide +kernel

/-- R58, R59, R215: the wave retires after 128 cycles, and its block and launch with it. -/
theorem test_retirement :
    ((after (.settleWindowExpiry 0) (retiring 127 1 false false)).wave 0).retired = false ∧
    ((after (.settleWindowExpiry 0) (retiring 128 1 false false)).wave 0).retired = true ∧
    ((after (.settleWindowExpiry 0) (retiring 128 1 false false)).block 0).phase = .retired ∧
    ((after (.settleWindowExpiry 0) (retiring 128 1 false false)).launch 0).phase = .complete ∧
    ((after (.settleWindowExpiry 0) (retiring 128 2 false false)).launch 0).counter = 1 ∧
    ((after (.settleWindowExpiry 0) (retiring 128 2 false true)).block 0).phase = .resident := by decide +kernel

/-- A load whose stream has completed a MEET behind an instruction that the other stream still holds, or not. -/
def meetsHeld (fence : Nat) : State := onWave (fun w => { w with
  seq := 2, loads := [{ load0 with id := 1, fence := fence }]
  a := w.a.map fun st => { st with frags := st.frags.modify 0 (·.map fun f => { f with hold := some hold0 }) } }) decoupled

theorem test_meets_LoadReturns_behind : (meetsHeld 1).behind 0 .c 1 = true ∧ (meetsHeld 0).behind 0 .c 0 = false := by decide

/-- R226: it waits for that instruction. -/
theorem test_load_waits : ((after (.loadReturn 0 1) (meetsHeld 1)).wave 0).loads.length = 1 ∧
    ((after (.loadReturn 0 1) (meetsHeld 0)).wave 0).loads = [] := by decide +kernel

/-- A stopped context whose queue is mapped or not. -/
def idleContext (q : Bool) : State := let s := stopped false false
  if q then s else { s with queues := s.queues.map fun k => { k with slot := none } }

/-- A module of which a context is asked for, and that a host's command finds in recovery or not. -/
def inRecoveryOf (s : State) : State := { s with trust := { s.trust with boot := .recovery 1 } }

theorem test_meets_Recovery :
    (idleContext true).mappedOf 96 0 ≠ [] ∧ (idleContext false).mappedOf 96 0 = [] ∧ (idleContext false).inRecovery = false ∧
    (inRecoveryOf (idleContext false)).inRecovery = true ∧ (recorded false).records.map (·.marks) = [[]] ∧
    (∀ q ∈ savedB.mappedOf 96 0, (savedB.queue q).preempted = false) := by decide +kernel

/-- R359, R407: an export makes a record, and in recovery none. -/
theorem test_export : (after (.migrationExport 96 0) (idleContext false)).records.length = 1 ∧
    (after (.migrationExport 96 0) (inRecoveryOf (idleContext false))).records = [] := by decide +kernel

theorem test_meets_Crst : base.up = true ∧ (base.context? 96 0).isSome = true ∧ inFlight.up = true ∧
    (inFlight.context? 96 0).isSome = true ∧ ((after (.crst 0x80000080) inFlight).launch 0).phase = .ending ∧
    ((after (.crst 0x80000080) base).launch 0).phase ≠ .ending := by decide +kernel

/-- R373: CRST makes the context new at once, or once its launch has ended, whose copy is in flight; VF field 96 names
none. -/
theorem test_crst : ((after (.crst 0x80000080) base).context 96 0).accepted = false ∧
    ((after (.crst 0x80000080) inFlight).context 96 0).reborn = true ∧
    ((after (.crst 0x80000080) inFlight).context 96 0).ended = true ∧
    ((after (.crst 0x80000060) base).context 96 0).accepted = true := by decide +kernel

/-- R376, R378: a function that stands, one that does not and one that is torn down. -/
theorem test_meets_peerGone : isVf 3 = true ∧ ((vfs { fn := 5 }).function 3).en = true ∧ isVf 96 = false ∧
    ((vfs { fn := 5 }).function 5).en = false ∧ ((parted false).function 5).tear.isSome = true := by decide

theorem test_meets_tearBusy : ∃ p, (vendors false true).trust.unfinished.find? (fun x => x.1 == 3) = some (3, 2, p) ∧
    ((vendors false true).function 3).tear = none ∧ (vendors false true).inRecovery = false := ⟨_, rfl, rfl, rfl⟩

/-- R411, R414: a teardown refuses the request in hand, and a session takes its own with it. -/
theorem test_request_goes : (after (.tear 3) (vendors false true)).vendorBusy 3 = false ∧
    ((after (.tear 3) (vendors false true)).trust.responses.find? fun r => r.1 == 3) = some (3, vendorResponse 2 3) ∧
    (after (.endSession 96) (vendors true true)).vendorBusy 96 = false ∧
    96 ∉ (after (.endSession 96) (vendors true true)).trust.slow := by decide +kernel

/-- A byte that a commit has brought to block, and one that another core of the cluster holds from before. -/
def committed : State :=
  let s := base.updCore 0 fun c => { c with bwb :=
    [{ key := ⟨.dev, 2⟩, group := 0, data := some { val := 7, by' := 0 } :: List.replicate 31 none }] }
  { s with lines := [{ core := some 1, cluster := none, key := ⟨.dev, 3⟩, bytes := List.replicate 32 5, written := 2 }] }

/-- R221, R416: strong accesses meet what commits have brought to their place, and the cluster's other cores see what one at
gang scope writes, but for bytes that they have written themselves. -/
theorem test_strong_places : (committed.strongRead 0 0 1 .dev 64).2 = 7 ∧ (committed.strongRead 0 0 3 .dev 64).2 = 0 ∧
    ((committed.strongWrite 0 0 1 .dev 64 9).loadByte 0 none .dev 64).1 = 9 ∧
    (((committed.strongWrite 0 0 2 .dev 96 9).strongWrite 0 0 2 .dev 97 9).lines.map fun x =>
      if x.core == some 1 then x.bytes.take 3 else []).contains [9, 5, 5] = true := by decide +kernel

end Sys2Proof.Tests
end

section
/-!
PROOFS. The canonical form of memory (R3, R165) as a predicate that every function keeps: for each function of the model
that `step` reaches, a lemma says that what it gives is well formed where what it is given is, and the lemmas of the
functions that a definition calls compose as its text does. The forms of memories, states and contexts are irreducible,
so that no proof looks into a state; `State.formed_iff_memWf` says what they come to.
-/

namespace Sys2Proof.Machine

/-- The canonical form of a byte memory. -/
@[irreducible] def Mem.Formed (m : Mem) : Prop := m.wf = true

/-- Device and host memory have the canonical form. -/
@[irreducible] def Memories.Formed (m : Memories) : Prop := m.dev.Formed ∧ m.host.Formed

/-- The memories of a state have the canonical form. -/
@[irreducible] def State.Formed (s : State) : Prop := s.memories.Formed

/-- The memories of the state in which a fragment issues have the canonical form. -/
@[irreducible] def Ctx.Formed (c : Ctx) : Prop := c.s.Formed

theorem State.formed_iff_memWf {s : State} : s.Formed ↔ s.memWf = true := by
  simp only [State.Formed, Memories.Formed, Mem.Formed, State.memWf, Bool.and_eq_true]

/-! What carries a state or a context besides: it has the form where the state that it carries, if any, has. -/

/-- The state that may be there has the form. -/
def OptFormed : Option State → Prop
  | some s => s.Formed
  | none => True

/-- The context that may be there has the form. -/
def OptCtxFormed : Option Ctx → Prop
  | some c => c.Formed
  | none => True

/-- An operation that gives a state or the class of a trap. -/
def ExcFormed : Except TrapClass State → Prop
  | .ok s => s.Formed
  | .error _ => True

/-- An operation that gives a state or the code of an engine fault. -/
def ExcNatFormed : Except Nat State → Prop
  | .ok s => s.Formed
  | .error _ => True

/-- The state after a step has the form; a fault and a refusal carry no state. -/
def OutFormed : Host.Outcome State Fault Refusal → Prop
  | .next s => s.Formed
  | _ => True

def Act.Formed : Act → Prop
  | .next c _ | .jump c _ | .trap c _ | .park c _ | .hold c _ | .holdPark c _ _ | .consume c _ => c.Formed
  | .raw s => s.Formed

/-- A start of an instruction that may act in place of what it computes. -/
def ActExcFormed {α : Type} : Except Act α → Prop
  | .ok _ => True
  | .error a => a.Formed

def CmdAct.Formed : CmdAct → Prop
  | .next s _ | .jump s _ _ | .wait s _ | .fault s _ _ | .skip s _ _ | .halt s => s.Formed

/-- A start of a command that may act in place of what it computes. -/
def CmdExcFormed {α : Type} : Except CmdAct α → Prop
  | .ok _ => True
  | .error a => a.Formed

def Reads.Formed : Reads → Prop
  | .ok c _ | .marked c _ => c.Formed
  | _ => True

def Pop.Formed : Pop → Prop
  | .got c _ | .marked c _ => c.Formed
  | _ => True

def Reserve.Formed : Reserve → Prop
  | .ok c _ | .discarded c => c.Formed
  | .stall => True

def Write.Formed : Write → Prop
  | .ok c => c.Formed
  | .stall => True

def Stacked.Formed : Stacked → Prop
  | .ok c => c.Formed
  | .stop _ => True

def Replays.Formed : Replays → Prop
  | .done s _ | .wait s _ | .refused s _ _ _ => s.Formed

def Sent.Formed : Sent → Prop
  | .status s _ | .request s _ => s.Formed
  | .miss _ => True

def CopyStep.Formed : CopyStep → Prop
  | .bytes s _ | .wait s _ _ => s.Formed
  | .err _ _ => True

def CopyRun.Formed : CopyRun → Prop
  | .finished s _ | .waiting s _ | .failed s _ _ _ => s.Formed

section
variable {s t : State} {c k : Ctx} {m : Memories} {p : Prop} [Decidable p]

/-! Memories and their states. -/

theorem Mem.formed_iff_wf {m : Mem} : m.Formed ↔ m.wf = true := by
  rw [Mem.Formed]

theorem Memories.formed_iff : m.Formed ↔ m.dev.Formed ∧ m.host.Formed := by
  rw [Memories.Formed]

theorem Mem.nil_formed : Mem.Formed [] := Mem.formed_iff_wf.2 rfl

theorem Mem.writes_formed {m : Mem} (hm : m.Formed) (a bs) : (m.writes a bs).Formed :=
  Mem.formed_iff_wf.2 (Mem.wf_writes (Mem.formed_iff_wf.1 hm) a bs)

theorem Memories.mk_formed {d h : Mem} {ks} (hd : d.Formed) (hh : h.Formed) : (Memories.mk d h ks).Formed :=
  Memories.formed_iff.2 ⟨hd, hh⟩

theorem Memories.dev_formed (hm : m.Formed) : m.dev.Formed :=
  (Memories.formed_iff.1 hm).1

theorem Memories.host_formed (hm : m.Formed) : m.host.Formed :=
  (Memories.formed_iff.1 hm).2

theorem State.memories_formed (hs : s.Formed) : s.memories.Formed := by
  rwa [State.Formed] at hs

/-- The form of a state is that of its memories, whatever its other fields. -/
theorem State.mk_formed {a₁ a₂ a₃ a₄ a₅ b₁ b₂ b₃ b₄ b₅ b₆ b₇ b₈ b₉ c₁ c₂ c₃ c₄ c₅ c₆ c₇ c₈ c₉ d₁ d₂ d₃ d₄}
    (hm : m.Formed) :
    (State.mk a₁ a₂ a₃ a₄ a₅ m b₁ b₂ b₃ b₄ b₅ b₆ b₇ b₈ b₉ c₁ c₂ c₃ c₄ c₅ c₆ c₇ c₈ c₉ d₁ d₂ d₃ d₄).Formed := by
  rwa [State.Formed]

/-- A state changed in other fields than its memories has the form that it had. -/
theorem State.with_formed {a₁ a₂ a₃ a₄ a₅ b₁ b₂ b₃ b₄ b₅ b₆ b₇ b₈ b₉ c₁ c₂ c₃ c₄ c₅ c₆ c₇ c₈ c₉ d₁ d₂ d₃ d₄}
    (hs : s.Formed) :
    (State.mk a₁ a₂ a₃ a₄ a₅ s.memories b₁ b₂ b₃ b₄ b₅ b₆ b₇ b₈ b₉ c₁ c₂ c₃ c₄ c₅ c₆ c₇ c₈ c₉ d₁ d₂ d₃ d₄).Formed :=
  State.mk_formed (State.memories_formed hs)

theorem Ctx.mk_formed {r w st f} (hs : s.Formed) : (Ctx.mk s r w st f).Formed := by
  rwa [Ctx.Formed]

theorem Ctx.s_formed (hc : c.Formed) : c.s.Formed := by
  rwa [Ctx.Formed] at hc

/-- A context changed in its fragment, its stream or its wave has the form that it had. -/
theorem Ctx.with_formed {r w st f} (hc : c.Formed) : (Ctx.mk c.s r w st f).Formed :=
  Ctx.mk_formed (Ctx.s_formed hc)

/-! Equations, choices, pairs, folds and defaults. -/

/-- A form that is known of a term holds of what the term is found to be. It is written `(formed_of_eq h e :)` where the
form is to be read off `h` and not off the goal. -/
theorem formed_of_eq {α : Type} {F : α → Prop} {x y : α} (h : F x) (e : x = y) : F y := e ▸ h

theorem formed_ite {α : Type} (F : α → Prop) {x y : α} (hx : F x) (hy : F y) :
    F (if p then x else y) := by
  split
  · exact hx
  · exact hy

theorem State.ite_formed {x y : State} (hx : x.Formed) (hy : y.Formed) :
    (if p then x else y).Formed :=
  formed_ite State.Formed hx hy

theorem Ctx.ite_formed {x y : Ctx} (hx : x.Formed) (hy : y.Formed) :
    (if p then x else y).Formed :=
  formed_ite Ctx.Formed hx hy

theorem Act.ite_formed {x y : Act} (hx : x.Formed) (hy : y.Formed) :
    (if p then x else y).Formed :=
  formed_ite Act.Formed hx hy

theorem CmdAct.ite_formed {x y : CmdAct} (hx : x.Formed) (hy : y.Formed) :
    (if p then x else y).Formed :=
  formed_ite CmdAct.Formed hx hy

theorem Reads.ite_formed {x y : Reads} (hx : x.Formed) (hy : y.Formed) :
    (if p then x else y).Formed :=
  formed_ite Reads.Formed hx hy

theorem Reserve.ite_formed {x y : Reserve} (hx : x.Formed) (hy : y.Formed) :
    (if p then x else y).Formed :=
  formed_ite Reserve.Formed hx hy

theorem Write.ite_formed {x y : Write} (hx : x.Formed) (hy : y.Formed) :
    (if p then x else y).Formed :=
  formed_ite Write.Formed hx hy

theorem Pop.ite_formed {x y : Pop} (hx : x.Formed) (hy : y.Formed) :
    (if p then x else y).Formed :=
  formed_ite Pop.Formed hx hy

theorem Stacked.ite_formed {x y : Stacked} (hx : x.Formed) (hy : y.Formed) :
    (if p then x else y).Formed :=
  formed_ite Stacked.Formed hx hy

theorem Sent.ite_formed {x y : Sent} (hx : x.Formed) (hy : y.Formed) :
    (if p then x else y).Formed :=
  formed_ite Sent.Formed hx hy

theorem CopyStep.ite_formed {x y : CopyStep} (hx : x.Formed) (hy : y.Formed) :
    (if p then x else y).Formed :=
  formed_ite CopyStep.Formed hx hy

theorem optFormed_ite {x y : Option State} (hx : OptFormed x) (hy : OptFormed y) :
    OptFormed (if p then x else y) :=
  formed_ite OptFormed hx hy

theorem optCtxFormed_ite {x y : Option Ctx} (hx : OptCtxFormed x) (hy : OptCtxFormed y) :
    OptCtxFormed (if p then x else y) :=
  formed_ite OptCtxFormed hx hy

theorem excFormed_ite {x y : Except TrapClass State} (hx : ExcFormed x) (hy : ExcFormed y) :
    ExcFormed (if p then x else y) :=
  formed_ite ExcFormed hx hy

theorem excNatFormed_ite {x y : Except Nat State} (hx : ExcNatFormed x) (hy : ExcNatFormed y) :
    ExcNatFormed (if p then x else y) :=
  formed_ite ExcNatFormed hx hy

theorem outFormed_ite {x y : Host.Outcome State Fault Refusal} (hx : OutFormed x) (hy : OutFormed y) :
    OutFormed (if p then x else y) :=
  formed_ite OutFormed hx hy

theorem actExcFormed_ite {α : Type} {x y : Except Act α} (hx : ActExcFormed x) (hy : ActExcFormed y) :
    ActExcFormed (if p then x else y) :=
  formed_ite ActExcFormed hx hy

theorem cmdExcFormed_ite {α : Type} {x y : Except CmdAct α} (hx : CmdExcFormed x) (hy : CmdExcFormed y) :
    CmdExcFormed (if p then x else y) :=
  formed_ite CmdExcFormed hx hy

theorem State.fst_ite_formed {α : Type} {x y : State × α} (hx : x.1.Formed) (hy : y.1.Formed) :
    (if p then x else y).1.Formed :=
  formed_ite (fun x : State × α => x.1.Formed) hx hy

theorem State.fst_formed {α : Type} {x : α} (hs : s.Formed) : (s, x).1.Formed := hs

/-- A fold keeps a form that each of its steps keeps. -/
theorem formed_foldl {α β : Type} (F : β → Prop) {l : List α} {g : β → α → β} {y : β} (hy : F y)
    (hg : ∀ y x, F y → F (g y x)) : F (l.foldl g y) := by
  induction l generalizing y with
  | nil => exact hy
  | cons x l ih => exact ih (hg y x hy)

theorem State.foldl_formed {α : Type} {l : List α} {g : State → α → State} (hs : s.Formed)
    (hg : ∀ s x, s.Formed → (g s x).Formed) : (l.foldl g s).Formed :=
  formed_foldl State.Formed hs hg

theorem State.foldl_fst_formed {α β : Type} {l : List α} {g : State × β → α → State × β} {y : State × β}
    (hy : y.1.Formed) (hg : ∀ y x, y.1.Formed → (g y x).1.Formed) : (l.foldl g y).1.Formed :=
  formed_foldl (fun y : State × β => y.1.Formed) hy hg

theorem Ctx.foldl_formed {α : Type} {l : List α} {g : Ctx → α → Ctx} (hc : c.Formed)
    (hg : ∀ c x, c.Formed → (g c x).Formed) : (l.foldl g c).Formed :=
  formed_foldl Ctx.Formed hc hg

theorem optFormed_getD {o : Option State} (ho : OptFormed o) (hs : s.Formed) : (o.getD s).Formed := by
  cases o with
  | none => exact hs
  | some t => exact ho

theorem optCtxFormed_getD {o : Option Ctx} (ho : OptCtxFormed o) (hc : c.Formed) : (o.getD c).Formed := by
  cases o with
  | none => exact hc
  | some k => exact ho

theorem State.elim_formed {α : Type} {o : Option α} {f : α → State} (hs : s.Formed)
    (hf : ∀ a, (f a).Formed) : (o.elim s f).Formed := by
  cases o with
  | none => exact hs
  | some a => exact hf a

theorem optCtxFormed_map {o : Option State} {f : State → Ctx} (ho : OptFormed o)
    (hf : ∀ s, s.Formed → (f s).Formed) : OptCtxFormed (o.map f) := by
  cases o with
  | none => exact ho
  | some s => exact hf s ho

/-! Constructors. -/

theorem optFormed_some (hs : s.Formed) : OptFormed (some s) := hs
theorem optFormed_none : OptFormed none := trivial
theorem optCtxFormed_some (hc : c.Formed) : OptCtxFormed (some c) := hc
theorem optCtxFormed_none : OptCtxFormed none := trivial
theorem excFormed_ok (hs : s.Formed) : ExcFormed (.ok s) := hs
theorem excFormed_error {e} : ExcFormed (.error e) := trivial
theorem excNatFormed_ok (hs : s.Formed) : ExcNatFormed (.ok s) := hs
theorem excNatFormed_error {e} : ExcNatFormed (.error e) := trivial
theorem outFormed_next (hs : s.Formed) : OutFormed (.next s) := hs
theorem outFormed_fault {e} : OutFormed (.fault e) := trivial
theorem outFormed_refused {e} : OutFormed (.refused e) := trivial
theorem actExcFormed_error {α : Type} {a : Act} (ha : a.Formed) : ActExcFormed (α := α) (.error a) := ha
theorem actExcFormed_ok {α : Type} {x : α} : ActExcFormed (.ok x) := trivial
theorem cmdExcFormed_error {α : Type} {a : CmdAct} (ha : a.Formed) : CmdExcFormed (α := α) (.error a) := ha
theorem cmdExcFormed_ok {α : Type} {x : α} : CmdExcFormed (.ok x) := trivial
theorem Act.next_formed {w} (hc : c.Formed) : (Act.next c w).Formed := hc
theorem Act.jump_formed {pc} (hc : c.Formed) : (Act.jump c pc).Formed := hc
theorem Act.trap_formed {x} (hc : c.Formed) : (Act.trap c x).Formed := hc
theorem Act.park_formed {x} (hc : c.Formed) : (Act.park c x).Formed := hc
theorem Act.hold_formed {h} (hc : c.Formed) : (Act.hold c h).Formed := hc
theorem Act.consume_formed {x} (hc : c.Formed) : (Act.consume c x).Formed := hc
theorem Act.raw_formed (hs : s.Formed) : (Act.raw s).Formed := hs
theorem CmdAct.next_formed {x} (hs : s.Formed) : (CmdAct.next s x).Formed := hs
theorem CmdAct.wait_formed {x} (hs : s.Formed) : (CmdAct.wait s x).Formed := hs
theorem CmdAct.fault_formed {n a} (hs : s.Formed) : (CmdAct.fault s n a).Formed := hs
theorem Reads.stall_formed : Reads.stall.Formed := trivial
theorem Reads.trap_formed {x} : (Reads.trap x).Formed := trivial
theorem Pop.got_formed {v} (hc : c.Formed) : (Pop.got c v).Formed := hc
theorem Pop.marked_formed {x} (hc : c.Formed) : (Pop.marked c x).Formed := hc
theorem Pop.stall_formed : Pop.stall.Formed := trivial
theorem Pop.trap_formed {x} : (Pop.trap x).Formed := trivial
theorem Reserve.ok_formed {ids} (hc : c.Formed) : (Reserve.ok c ids).Formed := hc
theorem Reserve.discarded_formed (hc : c.Formed) : (Reserve.discarded c).Formed := hc
theorem Reserve.stall_formed : Reserve.stall.Formed := trivial
theorem Write.ok_formed (hc : c.Formed) : (Write.ok c).Formed := hc
theorem Write.stall_formed : Write.stall.Formed := trivial
theorem Stacked.ok_formed (hc : c.Formed) : (Stacked.ok c).Formed := hc
theorem Stacked.stop_formed {x} : (Stacked.stop x).Formed := trivial
theorem Sent.status_formed {n} (hs : s.Formed) : (Sent.status s n).Formed := hs
theorem Sent.request_formed {n} (hs : s.Formed) : (Sent.request s n).Formed := hs
theorem Sent.miss_formed {va} : (Sent.miss va).Formed := trivial
theorem CopyStep.bytes_formed {bs} (hs : s.Formed) : (CopyStep.bytes s bs).Formed := hs
theorem CopyStep.wait_formed {q x} (hs : s.Formed) : (CopyStep.wait s q x).Formed := hs
theorem CopyStep.err_formed {n x} : (CopyStep.err n x).Formed := trivial

end

end Sys2Proof.Machine
end

section
/-!
PROOFS. Memories, translation, store buffers, cells, the engines' transfers and the launches keep the canonical form of
memory (R3, R165).
-/

namespace Sys2Proof.Machine

section
variable {s : State} {c : Ctx}

/-! Memories (Mem.lean). -/

theorem State.updWave_formed {w f} (hs : s.Formed) : (s.updWave w f).Formed :=
  with_formed hs

theorem State.updBlock_formed {b f} (hs : s.Formed) : (s.updBlock b f).Formed :=
  with_formed hs

theorem State.updLaunch_formed {l f} (hs : s.Formed) : (s.updLaunch l f).Formed :=
  with_formed hs

theorem State.updCore_formed {k f} (hs : s.Formed) : (s.updCore k f).Formed :=
  with_formed hs

theorem State.input_formed {w i} (hs : s.Formed) : (s.input w i).Formed :=
  updCore_formed hs

theorem State.updCluster_formed {k f} (hs : s.Formed) : (s.updCluster k f).Formed :=
  with_formed hs

theorem State.updContext_formed {fn asid f} (hs : s.Formed) : (s.updContext fn asid f).Formed :=
  with_formed hs

theorem State.updFunction_formed {fn f} (hs : s.Formed) : (s.updFunction fn f).Formed :=
  with_formed hs

theorem State.updQueue_formed {q f} (hs : s.Formed) : (s.updQueue q f).Formed :=
  with_formed hs

theorem State.updXctx_formed {e k f} (hs : s.Formed) : (s.updXctx e k f).Formed :=
  with_formed hs

/-! Every write of a byte comes down to these two. -/

theorem State.devWrite_formed {a bs} (hs : s.Formed) : (s.devWrite a bs).Formed :=
  mk_formed (Memories.mk_formed (Mem.writes_formed (Memories.dev_formed (memories_formed hs)) a bs)
    (Memories.host_formed (memories_formed hs)))

theorem State.hostWrite_formed {a bs} (hs : s.Formed) : (s.hostWrite a bs).Formed :=
  mk_formed (Memories.mk_formed (Memories.dev_formed (memories_formed hs))
    (Mem.writes_formed (Memories.host_formed (memories_formed hs)) a bs))

theorem State.elapse_formed {n} (hs : s.Formed) : (s.elapse n).Formed :=
  with_formed hs

theorem State.postEvent_formed {bs} (hs : s.Formed) : (s.postEvent bs).Formed :=
  ite_formed (with_formed hs) (with_formed (devWrite_formed hs))

/-! Translation (Translate.lean). -/

theorem State.fillTlb_formed {core fn asid va} (hs : s.Formed) :
    (s.fillTlb core fn asid va).Formed := by
  unfold State.fillTlb
  split
  · exact hs
  · split
    · dsimp only
      exact updCluster_formed (updCore_formed hs)
    · exact hs

theorem State.count_formed {fn asid ev n} (hs : s.Formed) : (s.count fn asid ev n).Formed :=
  updContext_formed hs

theorem State.parkFault_formed {die fn asid va write who} (hs : s.Formed) :
    (s.parkFault die fn asid va write who).1.Formed :=
  fst_ite_formed (fst_formed (with_formed (count_formed hs))) (fst_formed (count_formed hs))

theorem State.parkPeer_formed {fn asid va write who} (hs : s.Formed) :
    (s.parkPeer fn asid va write who).Formed := by
  simp only [State.parkPeer]
  split
  · exact parkFault_formed hs
  · exact with_formed (parkFault_formed hs)

theorem State.setPoison_formed {k on} (hs : s.Formed) : (s.setPoison k on).Formed :=
  mk_formed (Memories.mk_formed (Memories.dev_formed (memories_formed hs))
    (Memories.host_formed (memories_formed hs)))

theorem State.writeLine_formed {pa k} (hs : s.Formed) : (s.writeLine pa k).Formed :=
  foldl_formed (devWrite_formed hs) fun _ _ h => setPoison_formed h

theorem State.writePlace_formed {p a v} (hs : s.Formed) : (s.writePlace p a v).Formed := by
  unfold State.writePlace
  split
  · exact updBlock_formed hs
  · exact updBlock_formed hs
  · exact devWrite_formed hs
  · exact hostWrite_formed hs
  · exact hs

theorem State.putRun_formed {p a bs} (hs : s.Formed) : (s.putRun p a bs).Formed := by
  induction bs generalizing s a with
  | nil => exact hs
  | cons x t ih => exact ih (writePlace_formed hs)

theorem State.writeBytes_formed {p a bs} (hs : s.Formed) : (s.writeBytes p a bs).Formed :=
  foldl_formed (putRun_formed hs) fun _ _ h => setPoison_formed h

theorem writeScattered_formed {ps bs} (hs : s.Formed) : (writeScattered s ps bs).Formed := by
  induction ps generalizing s bs with
  | nil => exact hs
  | cons p ps ih =>
    cases bs with
    | nil => exact hs
    | cons x bs => exact ih (State.devWrite_formed hs)

theorem State.peerAccess_formed {fadd fn off ask} (hs : s.Formed) :
    (s.peerAccess fadd fn off ask).1.Formed := by
  simp only [State.peerAccess]
  refine fst_ite_formed hs (fst_ite_formed hs ?_)
  split
  · exact hs
  · split
    · exact hs
    · exact fst_formed (foldl_formed (writeScattered_formed hs) fun _ _ h => setPoison_formed h)
    · exact fst_ite_formed hs (fst_formed (writeScattered_formed hs))

/-! Store buffers (Buffers.lean). -/

theorem State.setConflict_formed {ws} (hs : s.Formed) : (s.setConflict ws).Formed :=
  foldl_formed hs fun _ _ h => updWave_formed h

theorem State.setSpilled_formed {ws level} (hs : s.Formed) : (s.setSpilled ws level).Formed :=
  foldl_formed hs fun _ _ h => updWave_formed h

theorem State.countSpill_formed {w} (hs : s.Formed) : (s.countSpill w).Formed :=
  count_formed hs

theorem State.breakRegions_formed {k} (hs : s.Formed) : (s.breakRegions k).Formed :=
  foldl_formed hs fun _ _ h => updWave_formed h

theorem State.countNak_formed {w dflt a} (hs : s.Formed) : (s.countNak w dflt a).Formed := by
  unfold State.countNak
  split
  · exact hs
  · exact hs
  · exact ite_formed (updLaunch_formed hs) hs

theorem State.askPeer_formed {fn node off ask wave dflt} (hs : s.Formed) :
    (s.askPeer fn node off ask wave dflt).1.Formed := by
  simp only [State.askPeer]
  split
  · exact fst_ite_formed (fst_formed (countNak_formed (with_formed hs))) (fst_formed (with_formed hs))
  · next f _ =>
    have hp : (s.peerAccess fadd32 f.fn off ask).1.Formed := peerAccess_formed hs
    split
    · next e =>
      rw [e] at hp
      exact fst_formed (countNak_formed (with_formed hp))
    · next e =>
      rw [e] at hp
      exact fst_formed (with_formed (parkPeer_formed hp))

theorem State.writeHome_formed {lid p a v} (hs : s.Formed) : (s.writeHome lid p a v).Formed :=
  ite_formed (updLaunch_formed hs) (writePlace_formed hs)

theorem State.markHome_formed {launch k b} (hs : s.Formed) : (s.markHome launch k b).Formed := by
  unfold State.markHome
  split
  · exact ite_formed (updLaunch_formed hs) (setPoison_formed hs)
  · exact setPoison_formed hs

theorem State.intoGwb_formed {cl c m} (hs : s.Formed) : (s.intoGwb cl c m).Formed :=
  updCluster_formed hs

theorem State.writeBack_formed {c m} (hs : s.Formed) : (s.writeBack c m).Formed := by
  unfold State.writeBack
  extract_lets whole put byte home
  have hbyte : ∀ s i, s.Formed → (byte s i).Formed := fun s i hs => by
    dsimp only [byte]
    split
    · exact writeHome_formed hs
    · exact writePlace_formed hs
  have hput : ∀ s (l : List Nat), s.Formed → (l.foldl (fun s i => if c.sends m i then byte s i else s) s).Formed :=
    fun s l hs => foldl_formed hs fun s i h => ite_formed (hbyte s i h) h
  have hhome : ∀ s, s.Formed → (home s).Formed := fun s hs =>
    ite_formed (markHome_formed (hput _ _ hs)) (ite_formed (markHome_formed (hput _ _ hs)) (hput _ _ hs))
  refine ite_formed hs ?_
  split
  · exact ite_formed (with_formed (intoGwb_formed hs)) (hhome _ (intoGwb_formed hs))
  · exact hhome _ hs

theorem State.writeOut_formed {c} (hs : s.Formed) : (s.writeOut c).Formed :=
  writeBack_formed (with_formed hs)

theorem State.writeOuts_formed {p} (hs : s.Formed) : (s.writeOuts p).Formed :=
  foldl_formed (foldl_formed hs fun _ _ h => writeOut_formed h) fun _ _ h => writeOut_formed h

theorem State.writeOutAll_formed {core L} (hs : s.Formed) : (s.writeOutAll core L).Formed :=
  writeOuts_formed hs

theorem State.giveWay_formed {core cluster k} (hs : s.Formed) : (s.giveWay core cluster k).Formed :=
  foldl_formed hs fun _ _ h => with_formed (writeBack_formed h)

theorem State.takeLine_formed {lid core atCore k} (hs : s.Formed) :
    (s.takeLine lid core atCore k).Formed := by
  simp only [State.takeLine]
  refine ite_formed hs (with_formed (ite_formed ?_ hs))
  split
  · exact writeOut_formed hs
  · exact hs

theorem State.patchLines_formed {here tag k} (hs : s.Formed) : (s.patchLines here tag k).Formed :=
  with_formed hs

theorem State.deliver_formed {w dflt here k} (hs : s.Formed) : (s.deliver w dflt here k).1.Formed := by
  unfold State.deliver
  refine fst_ite_formed hs ?_
  split
  · refine foldl_fst_formed hs fun _ _ h => ?_
    dsimp only
    exact askPeer_formed h
  · dsimp only
    exact ite_formed (ite_formed (setPoison_formed (foldl_formed hs fun _ _ h => writeBytes_formed h))
      (foldl_formed hs fun _ _ h => writeBytes_formed h))
      (patchLines_formed (ite_formed (setPoison_formed (foldl_formed hs fun _ _ h => writeBytes_formed h))
      (foldl_formed hs fun _ _ h => writeBytes_formed h)))

theorem State.sign_formed {b k} (hs : s.Formed) : (s.sign b k).Formed :=
  ite_formed hs (updBlock_formed hs)

theorem State.trimProv_formed {w lid die} (hs : s.Formed) : (s.trimProv w lid die).1.Formed := by
  unfold State.trimProv
  refine fst_ite_formed hs ?_
  split
  · exact hs
  · dsimp only
    exact deliver_formed (countSpill_formed (breakRegions_formed
      (setSpilled_formed (updLaunch_formed (writeOuts_formed hs)))))

theorem State.arriveL_formed {w dflt spill k} (hs : s.Formed) :
    (s.arriveL w dflt spill k).1.Formed :=
  fst_ite_formed (fst_formed (sign_formed hs)) (fst_ite_formed
    (trimProv_formed (patchLines_formed (setConflict_formed
    (updLaunch_formed (ite_formed (writeOuts_formed (sign_formed hs)) (sign_formed hs))))))
    (deliver_formed (sign_formed hs)))

theorem State.spillG_formed {core} (hs : s.Formed) : (s.spillG core).Formed := by
  simp only [State.spillG]
  split
  · exact hs
  · exact arriveL_formed (countSpill_formed (breakRegions_formed (setSpilled_formed (updCluster_formed hs))))

theorem State.arriveG_formed {w spill k} (hs : s.Formed) : (s.arriveG w spill k).1.Formed :=
  fst_ite_formed (deliver_formed hs) (fst_formed (setConflict_formed
    (updCluster_formed (ite_formed (spillG_formed (giveWay_formed hs)) (giveWay_formed hs)))))

theorem State.spillB_formed {core} (hs : s.Formed) : (s.spillB core).Formed := by
  unfold State.spillB
  split
  · exact hs
  · dsimp only
    exact arriveG_formed (countSpill_formed (breakRegions_formed (setSpilled_formed (updCore_formed hs))))

theorem State.arriveB_formed {w spill k} (hs : s.Formed) : (s.arriveB w spill k).Formed :=
  setConflict_formed (updCore_formed (ite_formed (spillB_formed (giveWay_formed hs)) (giveWay_formed hs)))

theorem climb_formed {up ks} (hs : s.Formed) (hu : ∀ s k, s.Formed → (up s k).1.Formed) :
    (climb up s ks).1.Formed :=
  State.foldl_fst_formed hs fun p k hp => hu p.1 k hp

theorem State.commitWhere_formed {w L cut dflt p} (hs : s.Formed) :
    (s.commitWhere w L cut dflt p).1.Formed := by
  simp only [State.commitWhere]
  generalize hw : s.updWave w _ = s₁
  have h₁ : s₁.Formed := hw ▸ State.updWave_formed hs
  generalize hb : List.foldl _ s₁ _ = s₂
  have h₂ : s₂.Formed := hb ▸ State.foldl_formed h₁ fun s q h => State.arriveB_formed h
  split
  · exact h₂
  · generalize hg : climb _ (s₂.updCore _ _) _ = r₃
    have h₃ : r₃.1.Formed := hg ▸ climb_formed (State.updCore_formed h₂) fun s k h => State.arriveG_formed h
    split
    · exact h₃
    · generalize hl : climb _ (r₃.1.updCluster _ _) _ = r₄
      have h₄ : r₄.1.Formed := hl ▸ climb_formed (State.updCluster_formed h₃) fun s k h => State.arriveL_formed h
      split
      · exact h₄
      · exact climb_formed (State.updLaunch_formed (State.writeOuts_formed h₄)) fun s k h => State.deliver_formed h

theorem State.commit_formed {w L cut dflt} (hs : s.Formed) : (s.commit w L cut dflt).1.Formed :=
  commitWhere_formed hs

theorem State.abort_formed {w L cut} (hs : s.Formed) : (s.abort w L cut).1.Formed := by
  unfold State.abort
  extract_lets wv bid lid L parts f0 s₁ rb s₂ cl rg s₃ rl s₄ s₅ left found kind
  have h₁ : s₁.Formed := updWave_formed hs
  have h₂ : s₂.Formed := ite_formed (updCore_formed h₁) h₁
  have h₃ : s₃.Formed := ite_formed (updCluster_formed h₂) h₂
  have h₄ : s₄.Formed := ite_formed (updLaunch_formed h₃) h₃
  exact writeOuts_formed h₄

theorem State.spillW_formed {w x} (hs : s.Formed) : OptFormed (s.spillW w x) := by
  simp only [State.spillW]
  split
  · exact optFormed_none
  · next k _ =>
    cases s.roomB w [k.key] with
    | false => exact optFormed_none
    | true =>
      refine optFormed_some (arriveB_formed (countSpill_formed (breakRegions_formed ?_)))
      exact setSpilled_formed (updWave_formed hs)

theorem State.roomFor_formed {w keys n} (hs : s.Formed) : OptFormed (s.roomFor w keys n) := by
  induction n generalizing s with
  | zero => exact trivial
  | succ n ih =>
    simp only [State.roomFor]
    split
    · exact optFormed_some hs
    · split
      · exact optFormed_none
      · next e => exact ih (formed_of_eq (State.spillW_formed hs) e :)

theorem State.store_formed {w sl region xs} (hs : s.Formed) : OptFormed (s.store w sl region xs) := by
  simp only [State.store]
  split
  · exact optFormed_none
  · next e =>
    have ht := formed_of_eq (State.roomFor_formed hs) e
    exact optFormed_some (updWave_formed ht)

theorem State.settleStore_formed {w p} (hs : s.Formed) : (s.settleStore w p).Formed :=
  ite_formed (ite_formed (setPoison_formed (foldl_formed hs fun _ _ h => writePlace_formed h))
    (foldl_formed hs fun _ _ h => writePlace_formed h)) (updWave_formed hs)

theorem State.settleStores_formed {w} (hs : s.Formed) : (s.settleStores w).Formed :=
  updWave_formed (updWave_formed (foldl_formed hs fun _ _ h => settleStore_formed h))

theorem State.flushNarrower_formed {b core sc k} (hs : s.Formed) :
    (s.flushNarrower b core sc k).Formed := by
  simp only [State.flushNarrower]
  refine ite_formed ?_ (ite_formed ?_ hs)
  · split
    · refine writeOut_formed (ite_formed ?_ hs)
      split
      · exact writeOut_formed hs
      · exact hs
    · refine ite_formed ?_ hs
      split
      · exact writeOut_formed hs
      · exact hs
  · split
    · exact writeOut_formed hs
    · exact hs

theorem State.strongRead_formed {b core sc p a} (hs : s.Formed) :
    (s.strongRead b core sc p a).1.Formed := by
  simp only [State.strongRead]
  split
  · exact fst_formed (takeLine_formed (flushNarrower_formed hs))
  · exact fst_formed (flushNarrower_formed hs)

theorem State.strongWrite_formed {b core sc p a v} (hs : s.Formed) :
    (s.strongWrite b core sc p a v).Formed := by
  simp only [State.strongWrite]
  split
  · exact ite_formed (updCore_formed (with_formed (takeLine_formed (flushNarrower_formed hs))))
      (updCluster_formed (with_formed (takeLine_formed (flushNarrower_formed hs))))
  · exact writeHome_formed (flushNarrower_formed hs)

theorem State.strongClean_formed {b core sc p as} (hs : s.Formed) :
    (s.strongClean b core sc p as).Formed := by
  simp only [State.strongClean]
  refine foldl_formed hs fun _ _ h => ?_
  split
  · exact with_formed h
  · exact markHome_formed h

theorem State.strongReads_formed {b core sc p a n} (hs : s.Formed) :
    (s.strongReads b core sc p a n).1.Formed := by
  induction n generalizing s a with
  | zero => exact hs
  | succ n ih => exact ih (strongRead_formed hs)

theorem State.strongWrites_formed {b core sc p a bs} (hs : s.Formed) :
    (s.strongWrites b core sc p a bs).Formed := by
  induction bs generalizing s a with
  | nil => exact hs
  | cons x t ih => exact ih (strongWrite_formed hs)

theorem State.strongStores_formed {b core sc ws} (hs : s.Formed) :
    (s.strongStores b core sc ws).Formed :=
  strongClean_formed (foldl_formed hs fun _ _ h => strongWrites_formed h)

theorem State.sendEgress_formed {i} (hs : s.Formed) : (s.sendEgress i).Formed := by
  unfold State.sendEgress
  split
  · exact hs
  · exact strongStores_formed (with_formed hs)

theorem State.flushEgress_formed {p} (hs : s.Formed) : (s.flushEgress p).Formed :=
  foldl_formed (with_formed hs) fun _ _ h => strongStores_formed h

/-! Cells (Cells.lean). -/

theorem State.wakeCell_formed {b off handle} (hs : s.Formed) : (s.wakeCell b off handle).Formed :=
  foldl_formed hs fun _ _ h => input_formed (updWave_formed h)

theorem State.arriveThread_formed {b off e remote} (hs : s.Formed) :
    ExcFormed (s.arriveThread b off e remote) := by
  unfold State.arriveThread
  split
  · exact excFormed_error
  · refine excFormed_ite excFormed_error ?_
    dsimp only
    exact excFormed_ite excFormed_error (excFormed_ite (excFormed_ok (wakeCell_formed (updBlock_formed hs)))
      (excFormed_ok (updBlock_formed hs)))

theorem State.closePhase_formed {b c} (hs : s.Formed) : (s.closePhase b c).Formed :=
  ite_formed (wakeCell_formed (updBlock_formed hs)) (updBlock_formed hs)

theorem State.announce_formed {b off total} (hs : s.Formed) : ExcFormed (s.announce b off total) := by
  unfold State.announce
  split
  · exact excFormed_error
  · exact excFormed_ite excFormed_error (excFormed_ite (excFormed_ok (closePhase_formed hs))
      (excFormed_ite excFormed_error (excFormed_ok (closePhase_formed hs))))

theorem State.countUnits_formed {b off units level} (hs : s.Formed) :
    OptFormed (s.countUnits b off units level) := by
  unfold State.countUnits
  split
  · exact optFormed_none
  · exact optFormed_ite optFormed_none (optFormed_some (closePhase_formed hs))

theorem State.release_formed {b off} (hs : s.Formed) : ExcFormed (s.release b off) := by
  unfold State.release
  split
  · exact excFormed_error
  · exact excFormed_ite excFormed_error (excFormed_ok (updBlock_formed hs))

theorem State.writeVirt_formed {fn asid va bs host} (hs : s.Formed) :
    (s.writeVirt fn asid va bs host).Formed := by
  simp only [State.writeVirt]
  refine foldl_formed (foldl_formed hs fun _ _ h => ?_) fun _ _ h => ?_
  · split
    · exact writePlace_formed h
    · exact h
  · split
    · exact setPoison_formed h
    · exact h

theorem State.record_formed {r launch} (hs : s.Formed) : (s.record r launch).Formed := by
  simp only [State.record]
  split
  · exact with_formed hs
  · exact ite_formed (with_formed hs) (updLaunch_formed (updQueue_formed (writeVirt_formed (with_formed hs))))

theorem State.trace_formed {fn asid kind core eseq pc datum} (hs : s.Formed) :
    (s.trace fn asid kind core eseq pc datum).Formed :=
  ite_formed hs (updContext_formed (writeVirt_formed (writeVirt_formed hs)))

theorem State.updHandle_formed {core i f} (hs : s.Formed) : (s.updHandle core i f).Formed :=
  updCore_formed hs

theorem State.addUser_formed {core h} (hs : s.Formed) : (s.addUser core h).Formed :=
  updHandle_formed hs

theorem State.dropUser_formed {core h} (hs : s.Formed) : (s.dropUser core h).Formed :=
  updHandle_formed hs

theorem State.freeHandles_formed {core blk} (hs : s.Formed) : (s.freeHandles core blk).Formed :=
  updCore_formed hs

/-! Transfers (Transfer.lean). -/

theorem State.copyRead_formed {core c a} (hs : s.Formed) : (s.copyRead core c a).Formed := by
  simp only [State.copyRead]
  split
  · exact CopyStep.ite_formed CopyStep.err_formed (CopyStep.bytes_formed hs)
  · exact CopyStep.ite_formed CopyStep.err_formed (CopyStep.bytes_formed hs)
  · split
    · exact CopyStep.wait_formed (parkFault_formed hs)
    · exact CopyStep.err_formed
    · exact CopyStep.ite_formed CopyStep.err_formed (CopyStep.bytes_formed hs)
  · split
    · exact CopyStep.wait_formed (parkFault_formed hs)
    · exact CopyStep.err_formed
    · exact CopyStep.ite_formed CopyStep.err_formed (CopyStep.bytes_formed hs)
  · refine CopyStep.ite_formed CopyStep.err_formed ?_
    split
    · exact CopyStep.wait_formed (askPeer_formed hs)
    · split
      · exact CopyStep.ite_formed CopyStep.err_formed (CopyStep.wait_formed hs)
      · exact CopyStep.bytes_formed hs
      · exact CopyStep.err_formed
      · exact CopyStep.err_formed

theorem State.copyClean_formed {c p a} (hs : s.Formed) : (s.copyClean c p a).Formed :=
  ite_formed hs (setPoison_formed hs)

theorem State.copyWrite_formed {core c a bs} (hs : s.Formed) : (s.copyWrite core c a bs).Formed := by
  simp only [State.copyWrite]
  split
  · exact CopyStep.bytes_formed (copyClean_formed (writeBytes_formed hs))
  · exact CopyStep.bytes_formed (copyClean_formed (writeBytes_formed hs))
  · split
    · exact CopyStep.wait_formed (parkFault_formed hs)
    · exact CopyStep.err_formed
    · exact CopyStep.bytes_formed (copyClean_formed (writeBytes_formed hs))
  · split
    · exact CopyStep.wait_formed (parkFault_formed hs)
    · exact CopyStep.err_formed
    · exact CopyStep.bytes_formed (copyClean_formed (writeBytes_formed hs))
  · refine CopyStep.ite_formed CopyStep.err_formed ?_
    split
    · exact CopyStep.wait_formed (askPeer_formed hs)
    · split
      · exact CopyStep.ite_formed CopyStep.err_formed (CopyStep.wait_formed hs)
      · exact CopyStep.bytes_formed hs
      · exact CopyStep.bytes_formed hs
      · exact CopyStep.err_formed

theorem State.copyWalk_formed {core k n} (hs : s.Formed) : (s.copyWalk core k n).Formed := by
  induction n generalizing s k with
  | zero => exact hs
  | succ n ih =>
    simp only [State.copyWalk]
    split
    · exact hs
    split
    · exact hs
    split
    · exact hs
    · next e =>
      split at e
      · cases e
      · exact (formed_of_eq (State.copyRead_formed hs) e :)
    · next s₁ bs e =>
      have h₁ : s₁.Formed := by
        split at e
        · cases e
          exact hs
        · exact (formed_of_eq (State.copyRead_formed hs) e :)
      split
      · exact h₁
      · next e => exact (formed_of_eq (State.copyWrite_formed h₁) e :)
      · next e => exact ih (formed_of_eq (State.copyWrite_formed h₁) e :)

theorem State.copyEnd_formed {core k done err} (hs : s.Formed) : (s.copyEnd core k done err).Formed := by
  have hd : ∀ (s : State) (h : Option Nat), s.Formed →
      (match h with | some h => s.dropUser core h | none => s).Formed := fun s h hs => by
    split
    · exact dropUser_formed hs
    · exact hs
  simp only [State.copyEnd]
  refine hd _ _ (hd _ _ (State.updCore_formed (State.input_formed (State.updWave_formed ?_))))
  split
  · exact State.count_formed hs
  · split
    · next e =>
      have := formed_of_eq (State.countUnits_formed (State.count_formed hs)) e
      exact fst_formed (ite_formed (wakeCell_formed (updBlock_formed this)) this)
    · exact State.count_formed hs

theorem State.copyComplete_formed {core idx} (hs : s.Formed) : (s.copyComplete core idx).Formed := by
  simp only [State.copyComplete]
  split
  · exact hs
  · split
    · next e =>
      have h := formed_of_eq (copyWalk_formed hs) e
      exact copyEnd_formed h
    · next e =>
      have h := formed_of_eq (copyWalk_formed hs) e
      exact copyEnd_formed h
    · next e =>
      have h := formed_of_eq (copyWalk_formed hs) e
      exact updCore_formed h

theorem State.drainCopies_formed {core ws} (hs : s.Formed) : (s.drainCopies core ws).Formed :=
  foldl_formed hs fun _ _ h => copyComplete_formed h

theorem State.cutCopies_formed {fn} (hs : s.Formed) : (s.cutCopies fn).Formed :=
  foldl_formed hs fun _ _ h => copyEnd_formed h

theorem State.unlockFill_formed {e k} (hs : s.Formed) : (s.unlockFill e k).Formed := by
  simp only [State.unlockFill]
  refine with_formed (updXctx_formed ?_)
  split
  · exact dropUser_formed hs
  · exact hs

theorem State.unbind_formed {e k} (hs : s.Formed) : (s.unbind e k).Formed :=
  with_formed (unlockFill_formed hs)

theorem State.stopEngines_formed {lid} (hs : s.Formed) : (s.stopEngines lid).Formed :=
  foldl_formed hs fun _ _ h => unbind_formed h

theorem State.engineFault_formed {e k code addr} (hs : s.Formed) :
    (s.engineFault e k code addr).Formed := by
  unfold State.engineFault
  split
  · exact hs
  · dsimp only
    exact trace_formed (record_formed (updXctx_formed (unlockFill_formed hs)))

/-! Launches (Launches.lean). -/

theorem State.releaseSuccessors_formed {lid} (hs : s.Formed) : (s.releaseSuccessors lid).Formed :=
  updQueue_formed hs

theorem State.sendReports_formed {q n} (hs : s.Formed) : (s.sendReports q n).Formed := by
  induction n generalizing s with
  | zero => exact hs
  | succ n ih =>
    simp only [State.sendReports]
    split
    · exact hs
    · split
      · exact ite_formed hs (updQueue_formed (parkFault_formed hs))
      · exact ih (elim_formed (updQueue_formed (writeBytes_formed hs)) fun _ => releaseSuccessors_formed
          (updQueue_formed (writeBytes_formed hs)))
      · exact ih (elim_formed (updQueue_formed hs) fun _ => releaseSuccessors_formed (updQueue_formed hs))

theorem State.completion_formed {q ring status code sqdrop naks err vtend released chained done}
    (hs : s.Formed) :
    (s.completion q ring status code sqdrop naks err vtend released chained done).Formed :=
  sendReports_formed (updQueue_formed hs)

theorem State.completeLaunch_formed {lid} (hs : s.Formed) : (s.completeLaunch lid).Formed :=
  completion_formed (stopEngines_formed (updLaunch_formed
    (foldl_formed (writeOuts_formed hs) fun _ _ h => deliver_formed h)))

theorem State.dropFrags_formed {ws} (hs : s.Formed) : (s.dropFrags ws).Formed :=
  with_formed hs

theorem State.dropFaults_formed {ws} (hs : s.Formed) : (s.dropFaults ws).Formed :=
  with_formed hs

theorem State.releaseBlock_formed {b phase} (hs : s.Formed) : (s.releaseBlock b phase).Formed :=
  updBlock_formed (freeHandles_formed hs)

theorem State.countDrops_formed {b} (hs : s.Formed) : (s.countDrops b).Formed :=
  updLaunch_formed hs

theorem State.retireBlock_formed {b} (hs : s.Formed) : (s.retireBlock b).Formed := by
  have hc : ((s.block b).waves.foldl (fun s w => (s.commit w 3 ((s.wave w).seq) true).1) s).Formed :=
    State.foldl_formed hs fun s w h => State.commit_formed h
  simp only [State.retireBlock]
  split
  · exact State.releaseBlock_formed hc
  · split
    · exact State.completeLaunch_formed (State.updLaunch_formed
        (State.countDrops_formed (State.releaseBlock_formed hc)))
    · exact State.updLaunch_formed (State.countDrops_formed (State.releaseBlock_formed hc))

theorem State.sweepBlock_formed {b} (hs : s.Formed) : (s.sweepBlock b).Formed :=
  ite_formed (retireBlock_formed hs) hs

theorem State.retireWave_formed {w} (hs : s.Formed) : (s.retireWave w).Formed := by
  simp only [State.retireWave]
  split
  · exact hs
  · exact ite_formed hs (ite_formed (sweepBlock_formed hs)
      (ite_formed hs (sweepBlock_formed (updWave_formed (updLaunch_formed (commit_formed hs))))))

theorem State.haltBlock_formed {b} (hs : s.Formed) : (s.haltBlock b).Formed :=
  dropFrags_formed (updCluster_formed (updCore_formed
    (foldl_formed (foldl_formed hs fun _ _ h₁ => foldl_formed h₁ fun _ _ h₂ => foldl_formed h₂
    fun _ _ h₃ => dropUser_formed h₃) fun _ _ h₁ => updWave_formed h₁)))

theorem State.closeBlock_formed {b} (hs : s.Formed) : (s.closeBlock b).Formed :=
  releaseBlock_formed (ite_formed (dropFaults_formed hs) (countDrops_formed (dropFaults_formed hs)))

theorem State.endShadow_formed {b} (hs : s.Formed) : (s.endShadow b).Formed :=
  closeBlock_formed (drainCopies_formed (haltBlock_formed hs))

theorem State.abandonScreen_formed {id} (hs : s.Formed) : (s.abandonScreen id).Formed := by
  simp only [State.abandonScreen]
  split
  · exact hs
  · refine ite_formed hs ?_
    split
    · exact with_formed (count_formed hs)
    · split
      · exact endShadow_formed (with_formed (count_formed hs))
      · exact endShadow_formed (with_formed (count_formed hs))
      · exact updBlock_formed (with_formed (count_formed hs))
      · exact with_formed (count_formed hs)

theorem State.unscreen_formed {w} (hs : s.Formed) : (s.unscreen w).Formed := by
  unfold State.unscreen
  split
  · exact abandonScreen_formed hs
  · exact hs

theorem State.haltLaunch_formed {lid} (hs : s.Formed) : (s.haltLaunch lid).Formed :=
  updLaunch_formed (stopEngines_formed (foldl_formed (flushEgress_formed hs) fun _ _ h => haltBlock_formed h))

theorem State.closeLaunch_formed {lid} (hs : s.Formed) : (s.closeLaunch lid).Formed :=
  ite_formed (completion_formed (updLaunch_formed (with_formed (foldl_formed hs fun _ _ h => closeBlock_formed h))))
    (updLaunch_formed (with_formed (foldl_formed hs fun _ _ h => closeBlock_formed h)))

theorem State.recreate_formed {fn asid} (hs : s.Formed) : (s.recreate fn asid).Formed :=
  ite_formed hs (updContext_formed hs)

theorem State.windUp_formed {lid} (hs : s.Formed) : (s.windUp lid).Formed :=
  ite_formed (ite_formed hs (haltLaunch_formed hs))
    (recreate_formed (closeLaunch_formed (ite_formed hs (haltLaunch_formed hs))))

theorem State.endLaunch_formed {lid report} (hs : s.Formed) : (s.endLaunch lid report).Formed := by
  simp only [State.endLaunch]
  refine ite_formed hs (windUp_formed (updLaunch_formed ?_))
  split
  · exact record_formed hs
  · exact hs

theorem State.endNote_formed {lid} (hs : s.Formed) : (s.endNote lid).Formed :=
  ite_formed hs (record_formed hs)

theorem State.endContext_formed {fn asid report} (hs : s.Formed) :
    (s.endContext fn asid report).Formed := by
  simp only [State.endContext]
  refine updContext_formed (foldl_formed (foldl_formed hs fun _ _ h => endLaunch_formed
    (ite_formed h (endNote_formed h))) fun _ _ h => ?_)
  split
  · exact abandonScreen_formed h
  · exact h

theorem State.trapEnds_formed {lid core r ctx} (hs : s.Formed) :
    (s.trapEnds lid core r ctx).Formed :=
  ite_formed hs (updLaunch_formed hs)

theorem State.goEnd_formed {lid} (hs : s.Formed) : (s.goEnd lid).Formed := by
  simp only [State.goEnd]
  refine ite_formed hs ?_
  split
  · exact endContext_formed hs
  · exact endLaunch_formed hs
  · exact windUp_formed hs

theorem State.undoEnds_formed {core t} (hs : s.Formed) : (s.undoEnds core t).Formed :=
  with_formed hs

end

end Sys2Proof.Machine
end

section
/-!
PROOFS. Operands and the shared operations of the instructions keep the canonical form of memory (R3, R165).
-/

namespace Sys2Proof.Machine

section
variable {s : State} {c : Ctx}

/-! Operands (Operands.lean). -/

theorem Ctx.of?_formed {r} (hs : s.Formed) : OptCtxFormed (Ctx.of? s r) := by
  unfold Ctx.of?
  split
  · exact optCtxFormed_none
  · split
    · exact optCtxFormed_none
    · exact optCtxFormed_some (Ctx.mk_formed hs)

theorem Ctx.out_formed (hc : c.Formed) : c.out.Formed :=
  State.updWave_formed (s_formed hc)

theorem Ctx.reload_formed (hs : s.Formed) : (c.reload s).Formed :=
  optCtxFormed_getD (Ctx.of?_formed hs) (mk_formed hs)

theorem Ctx.global_formed {g} (hc : c.Formed) (hg : ∀ s, s.Formed → (g s).Formed) :
    (c.global g).Formed :=
  Ctx.reload_formed (hg _ (out_formed hc))

theorem Ctx.pop_formed {x} (hc : c.Formed) : (c.pop x).Formed := by
  simp only [Ctx.pop]
  split
  · exact Pop.ite_formed Pop.trap_formed Pop.stall_formed
  · split
    · exact Pop.stall_formed
    · exact Pop.got_formed (with_formed hc)
    · exact Pop.ite_formed (Pop.got_formed (with_formed hc)) Pop.trap_formed
    · exact Pop.marked_formed (with_formed hc)

theorem Ctx.reserve_formed {x n} (hc : c.Formed) : (c.reserve x n).Formed := by
  simp only [Ctx.reserve]
  refine Reserve.ite_formed ?_ (Reserve.ite_formed Reserve.stall_formed (Reserve.ok_formed (with_formed hc)))
  split
  · exact Reserve.discarded_formed (with_formed hc)
  · exact Reserve.discarded_formed hc

theorem Ctx.fillAll_formed {x ids vs} (hc : c.Formed) : (c.fillAll x ids vs).Formed := by
  induction ids generalizing c vs with
  | nil => exact hc
  | cons i ids ih =>
    cases vs with
    | nil => exact hc
    | cons v vs => exact ih (with_formed hc)

theorem Ctx.readAll_formed {xs} (hc : c.Formed) : (c.readAll xs).Formed := by
  induction xs generalizing c with
  | nil => exact hc
  | cons x t ih =>
    rw [Ctx.readAll]
    split
    · split
      · exact Reads.stall_formed
      · exact Reads.trap_formed
      · next e => exact (formed_of_eq (Ctx.pop_formed hc) e :)
      · next c₁ lo e =>
        have h₁ : c₁.Formed := (formed_of_eq (Ctx.pop_formed hc) e :)
        split
        · split
          · exact Reads.stall_formed
          · exact Reads.trap_formed
          · next e => exact (formed_of_eq (Ctx.pop_formed h₁) e :)
          · next c₂ hi e =>
            have h₂ : c₂.Formed := (formed_of_eq (Ctx.pop_formed h₁) e :)
            split
            · next e => exact (formed_of_eq (ih h₂) e :)
            · exact ih h₂
        · split
          · next e => exact (formed_of_eq (ih h₁) e :)
          · exact ih h₁
    · split
      · next e => exact (formed_of_eq (ih hc) e :)
      · exact ih hc

theorem Ctx.setRegs_formed {g} (hc : c.Formed) : (c.setRegs g).Formed :=
  with_formed hc

theorem Ctx.setUni_formed {n v} (hc : c.Formed) : (c.setUni n v).Formed :=
  setRegs_formed hc

theorem Ctx.setUni64_formed {n v} (hc : c.Formed) : (c.setUni64 n v).Formed :=
  setUni_formed (setUni_formed hc)

theorem Ctx.setVec_formed {n m f} (hc : c.Formed) : (c.setVec n m f).Formed :=
  setRegs_formed hc

theorem Ctx.setSpec_formed {x v} (hc : c.Formed) : (c.setSpec x v).Formed := by
  unfold Ctx.setSpec
  split
  · exact setUni_formed hc
  · exact hc

theorem Ctx.setSpec64_formed {x v} (hc : c.Formed) : (c.setSpec64 x v).Formed := by
  unfold Ctx.setSpec64
  split
  · exact setUni64_formed hc
  · exact hc

theorem Ctx.writeDst_formed {d w64 f} (hc : c.Formed) : (c.writeDst d w64 f).Formed := by
  simp only [Ctx.writeDst]
  split
  · exact Write.ok_formed (ite_formed (setUni64_formed hc) (setUni_formed hc))
  · exact Write.ite_formed (Write.ok_formed (setVec_formed (setVec_formed hc))) (Write.ok_formed (setVec_formed hc))
  · split
    · exact Write.stall_formed
    · next e =>
      have h := formed_of_eq (reserve_formed hc) e
      exact Write.ok_formed h
    · next e =>
      have h := formed_of_eq (reserve_formed hc) e
      exact Write.ok_formed (fillAll_formed h)

/-! Shared operations (Ops.lean). -/

theorem Ctx.traced_formed {t} (hc : c.Formed) : (c.traced t).Formed :=
  mk_formed (State.trace_formed (s_formed hc))

theorem Ctx.fail_formed {x} (hc : c.Formed) : (c.fail x).Formed :=
  Act.trap_formed hc

theorem Ctx.protect_formed {n} (hc : c.Formed) : (c.protect n).Formed :=
  Act.trap_formed hc

theorem Ctx.endBy_formed {kind t} (hc : c.Formed) : (c.endBy kind t).Formed := by
  unfold Ctx.endBy
  split
  · exact State.abandonScreen_formed (out_formed hc)
  · exact State.trapEnds_formed (out_formed (traced_formed hc))

theorem Ctx.takeTrap_formed {t} (hc : c.Formed) : (c.takeTrap t).Formed :=
  State.ite_formed (endBy_formed hc) (State.ite_formed (endBy_formed hc)
    (State.ite_formed (out_formed (with_formed hc)) (out_formed (with_formed (traced_formed hc)))))

theorem Ctx.returnTrap_formed {h} (hc : c.Formed) : (c.returnTrap h).Formed :=
  Ctx.with_formed hc

theorem Ctx.restart_formed {g} (hc : c.Formed) : (c.restart g).Formed :=
  Ctx.with_formed hc

theorem Ctx.consumed_formed {k eseq} (hc : c.Formed) : (c.consumed k eseq).Formed := by
  simp only [Ctx.consumed]
  split
  · split
    · exact Ctx.takeTrap_formed hc
    · exact State.record_formed (Ctx.out_formed (Ctx.with_formed (Ctx.restart_formed hc)))
  · exact Ctx.takeTrap_formed hc

theorem Act.state_formed {a : Act} (ha : a.Formed) : a.state.Formed := by
  cases a with
  | next c w => exact Ctx.out_formed (Ctx.with_formed ha)
  | jump c pc => exact Ctx.out_formed (Ctx.with_formed ha)
  | trap c t => exact Ctx.takeTrap_formed ha
  | park c p => exact Ctx.out_formed (Ctx.with_formed ha)
  | hold c h => exact Ctx.out_formed (Ctx.with_formed ha)
  | holdPark c h p => exact Ctx.out_formed (Ctx.with_formed ha)
  | consume c k => exact Ctx.consumed_formed ha
  | raw s => exact ha

/-- The issuer's context has the form of the state, so what it does about an instruction need only keep the form. -/
theorem issued_formed {body} (hs : s.Formed) (hb : ∀ c, c.Formed → (body c).Formed) :
    OutFormed (issued s body) := by
  unfold issued
  split
  · split
    · next e => exact Act.state_formed (hb _ (formed_of_eq (Ctx.of?_formed hs) e :))
    · exact outFormed_refused
  · exact outFormed_refused

theorem Ctx.gate_formed {n body} (hc : c.Formed) (hb : ∀ c, c.Formed → (body c).Formed) :
    (c.gate n body).Formed := by
  have := hb c hc
  simp only [Ctx.gate]
  refine Act.ite_formed (Act.park_formed hc) (Act.ite_formed (fail_formed hc)
    (Act.ite_formed (fail_formed hc) (Act.ite_formed (fail_formed hc) (Act.ite_formed (fail_formed hc) ?_))))
  split
  · exact Act.trap_formed hc
  · split
    · exact Act.trap_formed hc
    · exact this

/-- A held instruction keeps the form where its start and its performance do. -/
theorem Ctx.heldOp_formed {n start perform} (hc : c.Formed)
    (hi : ∀ c, c.Formed → ActExcFormed (start c)) (hp : ∀ c h, c.Formed → (perform c h).Formed) :
    (c.heldOp n start perform).Formed := by
  simp only [Ctx.heldOp]
  split
  · next h _ =>
    have := hp c h hc
    exact Act.ite_formed this (Act.park_formed hc)
  · refine Ctx.gate_formed hc fun c hc => ?_
    split
    · next e => exact (formed_of_eq (hi c hc) e :)
    · exact Act.hold_formed (mk_formed (State.foldl_formed (s_formed hc) fun _ _ h => State.addUser_formed h))

theorem LaneOp.run_formed {o : LaneOp} (hc : c.Formed) : (o.run c).Formed := by
  simp only [LaneOp.run]
  refine Ctx.gate_formed hc fun c0 h0 => ?_
  split
  · exact Act.park_formed h0
  · exact Act.trap_formed h0
  · next e => exact (formed_of_eq (Ctx.readAll_formed h0) e :)
  · next c1 vals e =>
    have h1 : c1.Formed := (formed_of_eq (Ctx.readAll_formed h0) e :)
    split
    · exact Act.park_formed h0
    · next c2 e => exact (formed_of_eq (Ctx.writeDst_formed h1) e :)

/-! Flags (Flags.lean). -/

theorem Ctx.setCc_formed {v} (hc : c.Formed) : (c.setCc v).Formed :=
  with_formed hc

theorem Ctx.setPred_formed {n m v} (hc : c.Formed) : (c.setPred n m v).Formed :=
  setRegs_formed hc

theorem Ctx.compare_formed {illegal ets p x y holds} (hc : c.Formed) :
    (c.compare illegal ets p x y holds).Formed := by
  simp only [Ctx.compare]
  refine Ctx.gate_formed hc fun c0 h0 => ?_
  split
  · exact Act.park_formed h0
  · exact Act.trap_formed h0
  · next e =>
    have h := formed_of_eq (readAll_formed h0) e
    exact Act.consume_formed h
  · next e =>
    have h := formed_of_eq (readAll_formed h0) e
    exact Act.ite_formed (Act.next_formed (setPred_formed (setCc_formed h))) (Act.next_formed (setPred_formed h))

end

end Sys2Proof.Machine
end

section
/-!
PROOFS. The instructions that compute, cross lanes and transfer control keep the canonical form of memory (R3, R165).
-/

namespace Sys2Proof.Machine

section
variable {s : State} {c : Ctx}

/-! Integer instructions (Integer.lean). -/

theorem intOp_formed {d srcs readsD sat t} (hc : c.Formed) : (intOp d srcs readsD sat t c).Formed :=
  LaneOp.run_formed hc

theorem divOp_formed {x a la pick} (hc : c.Formed) : (divOp x a la pick c).Formed :=
  LaneOp.run_formed hc

theorem bitOp_formed {d srcs cnt readsD g} (hc : c.Formed) : (bitOp d srcs cnt readsD g c).Formed :=
  LaneOp.run_formed hc

theorem execTidx_formed {d a n} (hs : s.Formed) : OutFormed (execTidx d a n s) := by
  refine issued_formed hs fun c hc => ?_
  dsimp only
  split
  · exact Act.park_formed hc
  · refine Ctx.gate_formed hc fun c0 h0 => ?_
    split
    · exact Act.park_formed h0
    · exact Act.trap_formed h0
    · next e =>
      have h := formed_of_eq (Ctx.readAll_formed h0) e
      exact Act.consume_formed h
    · next e =>
      have h := formed_of_eq (Ctx.readAll_formed h0) e
      refine Act.next_formed (Ctx.foldl_formed h fun _ _ h₁ => ?_)
      split
      · exact Ctx.setVec_formed h₁
      · exact Ctx.setUni_formed h₁
      · exact h₁

/-! Floating-point instructions (FloatOps.lean). -/

theorem floatOp_formed {d srcs readsD rm ets la g} (hc : c.Formed) :
    (floatOp d srcs readsD rm ets la g c).Formed :=
  LaneOp.run_formed hc

theorem roundOp_formed {d srcs readsD la g} (hc : c.Formed) :
    (roundOp d srcs readsD la g c).Formed :=
  floatOp_formed hc

theorem fixedOp_formed {fn x a la ets} (hc : c.Formed) : (fixedOp fn x a la ets c).Formed :=
  floatOp_formed hc

theorem execUnpk_formed {d a} (hs : s.Formed) : OutFormed (execUnpk d a s) := by
  refine issued_formed hs fun c hc => Ctx.gate_formed hc fun c0 h0 => ?_
  split
  · exact Act.park_formed h0
  · exact Act.trap_formed h0
  · next e =>
    have h := formed_of_eq (Ctx.readAll_formed h0) e
    exact Act.consume_formed h
  · next e =>
    have h := formed_of_eq (Ctx.readAll_formed h0) e
    refine Ctx.foldl_formed h fun _ _ h₁ => ?_
    split
    · exact Ctx.setVec_formed h₁
    · exact Ctx.setUni_formed h₁
    · exact h₁

/-! Cross-lane instructions (Cross.lean). -/

theorem shuffle_formed {d a b src} (hc : c.Formed) : (shuffle d a b src c).Formed :=
  LaneOp.run_formed hc

theorem execWrlane_formed {d a b} (hs : s.Formed) : OutFormed (execWrlane d a b s) :=
  issued_formed hs fun _ h₁ => Ctx.gate_formed h₁ fun _ h₂ => Act.next_formed (Ctx.setVec_formed h₂)

theorem vote_formed {d p cc g} (hc : c.Formed) : (vote d p cc g c).Formed :=
  Ctx.gate_formed hc fun _ h => Act.next_formed (Ctx.ite_formed (Ctx.setCc_formed (Ctx.setSpec_formed h))
    (Ctx.setSpec_formed h))

theorem Ctx.putLanes_formed {d w64 m g} (hc : c.Formed) : (c.putLanes d w64 m g).Formed := by
  unfold Ctx.putLanes
  split
  · dsimp only
    exact ite_formed (setVec_formed (setVec_formed hc)) (setVec_formed hc)
  · exact ite_formed (setUni64_formed hc) (setUni_formed hc)
  · exact hc

/-! Control transfer (Control.lean). -/

theorem startLoop_formed {count len need} (hc : c.Formed) : (startLoop count len need c).Formed :=
  Ctx.gate_formed hc fun _ h => Act.ite_formed (Act.raw_formed (Ctx.out_formed (Ctx.with_formed h)))
    (Act.raw_formed (Ctx.out_formed (Ctx.with_formed h)))

theorem execLbrk_formed (hs : s.Formed) : OutFormed (execLbrk s) := by
  refine issued_formed hs fun c hc => Ctx.gate_formed hc fun c hc => ?_
  split
  · exact Ctx.fail_formed hc
  · exact Ctx.out_formed (Ctx.with_formed hc)

theorem maskBranch_formed {zero p i} (hc : c.Formed) : (maskBranch zero p i c).Formed :=
  Ctx.gate_formed hc fun _ h => Act.ite_formed h h

theorem execCall_formed {i} (hs : s.Formed) : OutFormed (execCall i s) :=
  issued_formed hs fun _ h₁ => Ctx.gate_formed h₁ fun _ h₂ => Act.jump_formed (Ctx.with_formed h₂)

theorem execRet_formed (hs : s.Formed) : OutFormed (execRet s) := by
  refine issued_formed hs fun c hc => ?_
  dsimp only
  refine Ctx.gate_formed hc fun _ h => ?_
  split
  · exact Act.jump_formed (Ctx.with_formed h)
  · exact Ctx.fail_formed h

theorem execSplit_formed {p t j} (hs : s.Formed) : OutFormed (execSplit p t j s) := by
  refine issued_formed hs fun c hc => ?_
  refine Ctx.gate_formed hc fun _ h => ?_
  dsimp only
  refine Act.ite_formed (Act.raw_formed (Ctx.out_formed (Ctx.with_formed h)))
    (Act.ite_formed (Act.raw_formed (Ctx.out_formed (Ctx.with_formed h))) ?_)
  split <;> exact Act.raw_formed (Ctx.out_formed (Ctx.with_formed h))

theorem execJoin_formed (hs : s.Formed) : OutFormed (execJoin s) := by
  refine issued_formed hs fun c hc => Ctx.gate_formed hc fun c hc => ?_
  dsimp only
  split
  · exact Act.next_formed (Ctx.ite_formed (Ctx.with_formed hc) hc)
  · exact Act.ite_formed (Act.next_formed hc) (Act.ite_formed (Act.next_formed (Ctx.with_formed hc))
      (Act.ite_formed (Act.next_formed (Ctx.with_formed hc)) (Act.raw_formed (Ctx.out_formed (Ctx.with_formed hc)))))
  · exact Act.ite_formed (Act.next_formed hc) (Act.raw_formed (State.updWave_formed (Ctx.s_formed hc)))
  · exact Act.next_formed hc

theorem execExit_formed (hs : s.Formed) : OutFormed (execExit s) :=
  issued_formed hs fun _ h₁ => Ctx.gate_formed h₁ fun _ h₂ => Act.raw_formed (State.updWave_formed (Ctx.s_formed h₂))

theorem execCqput_formed {a} (hs : s.Formed) : OutFormed (execCqput a s) := by
  refine issued_formed hs fun c hc => ?_
  dsimp only
  split
  · exact Ctx.gate_formed hc fun _ h => Act.next_formed h
  · refine Ctx.gate_formed hc fun c0 h0 => ?_
    split
    · exact Act.park_formed h0
    · next e =>
      have h := formed_of_eq (Ctx.reserve_formed h0) e
      exact Act.next_formed h
    · next e =>
      have h := formed_of_eq (Ctx.reserve_formed h0) e
      exact Act.next_formed (Ctx.fillAll_formed h)

theorem execCqget_formed {d} (hs : s.Formed) : OutFormed (execCqget d s) := by
  refine issued_formed hs fun c hc => ?_
  dsimp only
  split
  · exact Ctx.gate_formed hc fun _ h => Act.next_formed h
  · refine Ctx.gate_formed hc fun c0 h0 => ?_
    split
    · exact Act.park_formed h0
    · exact Act.trap_formed h0
    · next e =>
      have h := formed_of_eq (Ctx.pop_formed h0) e
      exact Act.consume_formed h
    · next e =>
      have h := formed_of_eq (Ctx.pop_formed h0) e
      split
      · exact Act.next_formed (Ctx.setPred_formed h)
      · exact Act.next_formed (Ctx.setSpec_formed h)

theorem execMeet_formed (hs : s.Formed) : OutFormed (execMeet s) := by
  refine issued_formed hs fun c hc => ?_
  refine Act.ite_formed (Ctx.gate_formed hc fun _ h => Act.next_formed h) (Ctx.gate_formed hc fun _ h => ?_)
  dsimp only
  refine Act.ite_formed (Act.next_formed (Ctx.with_formed h)) ?_
  split
  · exact Act.next_formed (Ctx.with_formed h)
  · exact Act.park_formed h

theorem Ctx.grow_formed {n} (hc : c.Formed) : (c.grow n).Formed :=
  Act.ite_formed (Act.next_formed (with_formed hc)) (Act.ite_formed hc hc)

theorem execGrow_formed {n} (hs : s.Formed) : OutFormed (execGrow n s) :=
  issued_formed hs fun _ h₁ => Ctx.gate_formed h₁ fun _ h₂ => Ctx.grow_formed h₂

theorem execShrink_formed {n} (hs : s.Formed) : OutFormed (execShrink n s) :=
  issued_formed hs fun _ h₁ => Ctx.gate_formed h₁ fun _ h₂ => Act.next_formed
    (Ctx.mk_formed (State.updCore_formed (Ctx.s_formed h₂)))

end

end Sys2Proof.Machine
end

section
/-!
PROOFS. The instructions that access memory, commit, wait at barriers and copy keep the canonical form of memory
(R3, R165).
-/

namespace Sys2Proof.Machine

section
variable {s : State} {c : Ctx}

/-! Accesses (Access.lean). -/

theorem Ctx.backing_formed {word wr go} (hg : ∀ pa, (go pa).Formed) : (c.backing word wr go).Formed := by
  simp only [Ctx.backing]
  split
  · exact Stacked.stop_formed
  · exact Stacked.stop_formed
  · exact hg _

theorem Ctx.stackRoom_formed (hc : c.Formed) : c.stackRoom.Formed := by
  unfold Ctx.stackRoom
  refine Stacked.ite_formed (Stacked.ok_formed hc) ?_
  split
  · exact Stacked.stop_formed
  · dsimp only
    exact Stacked.ite_formed (Stacked.ok_formed (with_formed hc))
      (backing_formed fun _ => Stacked.ok_formed (mk_formed (State.writeLine_formed (s_formed hc))))

theorem Ctx.stackLine_formed {word} (hc : c.Formed) : (c.stackLine word).Formed := by
  simp only [Ctx.stackLine]
  split
  · exact Stacked.ok_formed hc
  · split
    · exact Stacked.ok_formed (with_formed hc)
    · split
      · exact Stacked.stop_formed
      · next e =>
        have := formed_of_eq (Ctx.stackRoom_formed hc) e
        exact backing_formed fun _ => Stacked.ok_formed (mk_formed (State.fillTlb_formed (s_formed this)))

theorem Ctx.stack_formed {q sc} (hc : c.Formed) : (c.stack q sc).1.Formed := by
  simp only [Ctx.stack]
  split
  · split
    · exact hc
    · next c₁ e =>
      have h₁ : c₁.Formed := (formed_of_eq (Ctx.stackLine_formed hc) e :)
      split
      · exact h₁
      · split
        · exact hc
        · next e => exact (formed_of_eq (Ctx.stackLine_formed h₁) e :)
  · exact hc

theorem Ctx.parkXlate_formed {va wr} (hc : c.Formed) : (c.parkXlate va wr).Formed :=
  Act.park_formed (mk_formed (State.parkFault_formed (s_formed hc)))

theorem Ctx.fillTlbs_formed {xs} (hc : c.Formed) : (c.fillTlbs xs).Formed := by
  unfold Ctx.fillTlbs
  refine mk_formed (State.foldl_formed (s_formed hc) fun _ _ h => ?_)
  split
  · exact State.fillTlb_formed h
  · exact State.fillTlb_formed h
  · exact h

theorem Ctx.watched_formed {wr xs} (hc : c.Formed) : (c.watched wr xs).Formed :=
  ite_formed (with_formed hc) (ite_formed (with_formed hc) hc)

theorem Ctx.external_formed (hc : c.Formed) : c.external.Formed :=
  mk_formed (State.updBlock_formed (s_formed hc))

theorem Ctx.externalIf_formed {b} (hc : c.Formed) : (c.externalIf b).Formed :=
  ite_formed (external_formed hc) hc

theorem State.strayPoison_formed {w ld k} (hs : s.Formed) : (s.strayPoison w ld k).Formed := by
  simp only [State.strayPoison]
  split
  · exact abandonScreen_formed hs
  · exact trapEnds_formed hs

theorem State.flushFor_formed {w ld} (hs : s.Formed) : (s.flushFor w ld).Formed :=
  flushEgress_formed hs

theorem State.loadReturn_formed {w id} (hs : s.Formed) : (s.loadReturn w id).Formed := by
  simp only [State.loadReturn]
  split
  · exact hs
  · next ld _ =>
    generalize hf : (s.flushFor w ld) = s₁
    have h₁ : s₁.Formed := hf ▸ State.flushFor_formed hs
    generalize hu : State.updWave _ w _ = s₂
    have h₂ : s₂.Formed := hu ▸ State.updWave_formed (ite_formed (count_formed h₁) h₁)
    split
    · exact updWave_formed h₂
    · split
      · split
        · exact updContext_formed h₂
        · exact updWave_formed h₂
      · split
        · next e =>
          have := formed_of_eq (Ctx.of?_formed h₂) e
          exact ite_formed (Ctx.consumed_formed (Ctx.with_formed this)) (Ctx.takeTrap_formed (Ctx.with_formed this))
        · exact strayPoison_formed h₂

theorem Ctx.deliver_formed {q ids g} (hc : c.Formed) : (c.deliver q ids g).Formed :=
  with_formed hc

theorem Ctx.loadEntries_formed {q} (hc : c.Formed) : (c.loadEntries q).Formed := by
  unfold Ctx.loadEntries
  split
  · exact Reserve.ok_formed hc
  · exact Reserve.ite_formed (reserve_formed hc) (Reserve.ok_formed hc)

theorem Ctx.mark_formed {q ids st} (hc : c.Formed) : (c.mark q ids st).Formed :=
  with_formed hc

theorem Ctx.loadAddr_formed {q} (hc : c.Formed) : (c.loadAddr q).Formed := by
  unfold Ctx.loadAddr
  split
  · exact hc
  · exact Reads.ite_formed (readAll_formed hc) hc

theorem Ctx.load_formed {q pc} (hc : c.Formed) : (c.load q pc).Formed := by
  simp only [Ctx.load]
  split
  · exact Act.park_formed hc
  · exact Act.trap_formed hc
  · next e => exact (formed_of_eq (Ctx.loadAddr_formed hc) e :)
  · next c₁ vals e =>
    have h₁ : c₁.Formed := (formed_of_eq (Ctx.loadAddr_formed hc) e :)
    generalize hk : c₁.stack q _ = r
    have h₂ : r.1.Formed := hk ▸ Ctx.stack_formed h₁
    have hl : ∀ y, (match r.2 with
      | .ok _ => r.1.loadEntries q
      | _ => if r.1.poisons q then r.1.loadEntries q else Reserve.ok r.1 []) = y → y.Formed := by
      rintro _ rfl
      split
      · exact loadEntries_formed h₂
      · exact Reserve.ite_formed (loadEntries_formed h₂) (Reserve.ok_formed h₂)
    split
    · exact Act.park_formed hc
    · split
      · exact Act.park_formed hc
      · next e =>
        have := hl _ e
        split
        · exact parkXlate_formed hc
        · exact Act.next_formed (externalIf_formed (watched_formed this))
        · exact Act.next_formed this
      · next e =>
        have := hl _ e
        split
        · exact Act.park_formed hc
        · exact Act.ite_formed (Act.next_formed (mark_formed this)) (Act.trap_formed hc)
        · split
          · split
            · next e =>
              have := formed_of_eq (Ctx.parkXlate_formed this) e
              exact Act.park_formed (with_formed this)
            · exact parkXlate_formed this
          · exact parkXlate_formed hc
        · split
          · split
            · exact Act.ite_formed (Act.next_formed
                (mark_formed (externalIf_formed (watched_formed (fillTlbs_formed this))))) (Act.consume_formed hc)
            · exact Act.next_formed (deliver_formed (externalIf_formed (watched_formed (fillTlbs_formed this))))
          · exact Act.next_formed (with_formed (externalIf_formed (watched_formed (fillTlbs_formed this))))

theorem Ctx.loadOp_formed {q illegal} (hc : c.Formed) : (c.loadOp q illegal).Formed := by
  unfold Ctx.loadOp
  split
  · exact load_formed hc
  · exact gate_formed hc fun _ h => load_formed h

theorem Ctx.storeOp_formed {q illegal} (hc : c.Formed) : (c.storeOp q illegal).Formed := by
  simp only [Ctx.storeOp]
  refine Ctx.gate_formed hc fun c0 h0 => ?_
  split
  · exact Act.park_formed h0
  · exact Act.trap_formed h0
  · next e => exact (formed_of_eq (Ctx.readAll_formed h0) e :)
  · next c₁ vals e =>
    have h₁ : c₁.Formed := (formed_of_eq (Ctx.readAll_formed h0) e :)
    generalize hk : c₁.stack q _ = r
    have h₂ : r.1.Formed := hk ▸ Ctx.stack_formed h₁
    generalize (if q.hasA then vals.drop 1 else vals) = ws
    split
    · exact Act.park_formed h0
    · exact Act.trap_formed h0
    · exact parkXlate_formed h0
    · next xs _ =>
      have h₃ : (((r.1.fillTlbs xs).watched true xs).externalIf (q.leaves && !xs.isEmpty)).Formed :=
        externalIf_formed (watched_formed (fillTlbs_formed h₂))
      split
      · exact Act.next_formed (with_formed h₃)
      · split
        · exact h₃
        · split
          · next e =>
            have := formed_of_eq (State.store_formed (Ctx.out_formed h₃)) e
            exact Act.next_formed (reload_formed this)
          · exact Act.park_formed h0

theorem execPfd_formed {a la k x} (hs : s.Formed) : OutFormed (execPfd a la k x s) := by
  simp only [execPfd]
  refine issued_formed hs fun c hc => Ctx.gate_formed hc fun c0 h0 => ?_
  split
  · exact Act.park_formed h0
  · exact Act.trap_formed h0
  · next e =>
    have h := formed_of_eq (Ctx.readAll_formed h0) e
    exact Act.consume_formed h
  · next e =>
    have h := formed_of_eq (Ctx.readAll_formed h0) e
    split
    · exact Act.trap_formed h0
    · exact Act.next_formed h

theorem Ctx.strongLoad_formed {q} (hc : c.Formed) : (c.strongLoad q).Formed := by
  simp only [Ctx.strongLoad]
  refine Ctx.heldOp_formed hc (fun c0 h0 => ?_) fun c h hc => ?_
  · split
    · exact actExcFormed_error (Act.park_formed h0)
    · exact actExcFormed_error (Act.trap_formed h0)
    · next e => exact (formed_of_eq (Ctx.readAll_formed h0) e :)
    · next c₁ vals e =>
      have h₁ : c₁.Formed := (formed_of_eq (Ctx.readAll_formed h0) e :)
      split
      · exact actExcFormed_error (Act.park_formed h0)
      · split
        · split
          · exact actExcFormed_error (Act.park_formed h0)
          · exact actExcFormed_error (parkXlate_formed h0)
          · next e =>
            have h₂ := formed_of_eq (Ctx.reserve_formed h₁) e
            refine actExcFormed_error ?_
            split
            · next e =>
              exact (formed_of_eq (Ctx.parkXlate_formed h₂) e :)
            · exact parkXlate_formed h₂
        · exact actExcFormed_error (parkXlate_formed h0)
      · split
        · split
          · exact actExcFormed_error (Act.park_formed h0)
          · next e =>
            have h := formed_of_eq (reserve_formed h₁) e
            exact actExcFormed_error (Act.next_formed h)
          · next e =>
            have h := formed_of_eq (reserve_formed h₁) e
            exact actExcFormed_error (Act.next_formed (mark_formed h))
        · exact actExcFormed_error (Act.trap_formed h0)
      · have hr : (if isQueue q.x then c₁.reserve q.x q.regs else .ok c₁ []).Formed := Reserve.ite_formed
          (reserve_formed h₁) (Reserve.ok_formed h₁)
        split
        · exact actExcFormed_error (Act.park_formed h0)
        · next e =>
          have h := formed_of_eq hr e
          exact actExcFormed_error (Act.hold_formed h)
        · next e =>
          have h := formed_of_eq hr e
          exact actExcFormed_error (Act.hold_formed h)
  · split
    · exact Act.park_formed hc
    · exact parkXlate_formed hc
    · exact Act.ite_formed (Act.next_formed (mark_formed hc)) (Act.trap_formed hc)
    · split
      · exact Act.park_formed hc
      · split
        · exact Act.ite_formed (Act.next_formed (mark_formed hc)) (Act.consume_formed hc)
        · exact Act.next_formed (watched_formed (deliver_formed
            (mk_formed (State.foldl_fst_formed (State.fst_formed (s_formed hc)) fun _ _ h₁ => State.fst_formed
            (State.strongReads_formed h₁)))))

theorem Ctx.strongStore_formed {q} (hc : c.Formed) : (c.strongStore q).Formed := by
  simp only [Ctx.strongStore]
  refine Ctx.heldOp_formed hc (fun c0 h0 => ?_) fun c h hc => ?_
  · split
    · exact actExcFormed_error (Act.park_formed h0)
    · exact actExcFormed_error (Act.trap_formed h0)
    · next e =>
      have h := formed_of_eq (readAll_formed h0) e
      exact actExcFormed_error (Act.consume_formed h)
    · next e =>
      have h := formed_of_eq (readAll_formed h0) e
      split
      · exact actExcFormed_error (Act.park_formed h0)
      · exact actExcFormed_error (parkXlate_formed h0)
      · exact actExcFormed_error (Act.trap_formed h0)
      · exact actExcFormed_error (Act.hold_formed h)
  · split
    · exact Act.park_formed hc
    · exact parkXlate_formed hc
    · exact Act.trap_formed hc
    · exact Act.ite_formed (Act.park_formed hc) (Act.next_formed
        (externalIf_formed (watched_formed (mk_formed
        (State.ite_formed (State.strongStores_formed (s_formed hc)) (State.with_formed (s_formed hc)))))))

theorem execSldd_formed {x a la k z} (hs : s.Formed) : OutFormed (execSldd x a la k z s) :=
  issued_formed hs fun _ h => Ctx.strongLoad_formed h

theorem execSstd_formed {x a la k z} (hs : s.Formed) : OutFormed (execSstd x a la k z s) :=
  issued_formed hs fun _ h => Ctx.strongStore_formed h

theorem Ctx.putOld_formed {q old} (hc : c.Formed) : (c.putOld q old).Formed := by
  simp only [Ctx.putOld]
  split
  · exact ite_formed (setVec_formed (setVec_formed hc)) (setVec_formed hc)
  · exact ite_formed hc (ite_formed (setUni64_formed hc) (setUni_formed hc))
  · exact hc

theorem Ctx.atomicStart_formed {q} (hc : c.Formed) : ActExcFormed (c.atomicStart q) := by
  simp only [Ctx.atomicStart]
  split
  · exact actExcFormed_error (Act.park_formed hc)
  · exact actExcFormed_error (Act.trap_formed hc)
  · next e =>
    have h := formed_of_eq (readAll_formed hc) e
    exact actExcFormed_error (Act.consume_formed h)
  · next e =>
    have h := formed_of_eq (readAll_formed hc) e
    split
    · exact actExcFormed_error (Act.park_formed hc)
    · exact actExcFormed_error (parkXlate_formed hc)
    · exact actExcFormed_error (Act.trap_formed hc)
    · exact actExcFormed_error (Act.hold_formed h)

theorem Ctx.atomicOp_formed {q op sc ext bad rd wr} (hc : c.Formed)
    (hr : ∀ s x, s.Formed → (rd s x).1.Formed) (hw : ∀ s x bs, s.Formed → (wr s x bs).Formed) :
    (c.atomicOp q op sc ext bad rd wr).Formed := by
  simp only [Ctx.atomicOp]
  refine Ctx.heldOp_formed hc (fun c0 h0 => Ctx.atomicStart_formed h0) fun c h hc => ?_
  split
  · exact Act.park_formed hc
  · exact parkXlate_formed hc
  · exact Act.trap_formed hc
  · next xs _ =>
    split
    · exact Act.consume_formed hc
    · refine Act.next_formed (Ctx.externalIf_formed (Ctx.watched_formed (Ctx.putOld_formed (Ctx.mk_formed ?_))))
      refine State.foldl_fst_formed (Ctx.s_formed hc) fun p x hp => ?_
      have h₁ := hr p.1 x hp
      split
      · exact h₁
      · exact hw _ x _ h₁

theorem execAts_formed {x a la o} (hs : s.Formed) : OutFormed (execAts x a la o s) :=
  issued_formed hs fun _ h₁ => Ctx.atomicOp_formed h₁ (fun _ _ h₂ => h₂) fun _ _ _ h₂ => State.writeBytes_formed h₂

theorem Ctx.scopedAtomic_formed {q op ext} (hc : c.Formed) : (c.scopedAtomic q op ext).Formed :=
  atomicOp_formed hc (fun _ _ h => State.strongReads_formed h) fun _ _ _ h => State.strongWrites_formed h

theorem replay_formed {ask xs reqs n} (hs : s.Formed) : (replay c ask xs s reqs n).Formed := by
  induction n generalizing s reqs with
  | zero => exact hs
  | succ n ih =>
    simp only [replay]
    split
    · exact hs
    · split
      · exact hs
      · split
        · exact hs
        · exact ih (State.foldl_fst_formed hs fun p y hp => State.askPeer_formed hp)

theorem Ctx.peerLoad_formed {q} (hc : c.Formed) : (c.peerLoad q).Formed := by
  unfold Ctx.peerLoad
  extract_lets win go begin'
  have hgo : ∀ c h, c.Formed → (go c h).Formed := fun c h hc => by
    simp only [go]
    split
    · exact Act.park_formed hc
    · exact parkXlate_formed hc
    · exact Act.ite_formed (Act.next_formed (mark_formed hc)) (Act.trap_formed hc)
    · next xs _ =>
      have hr : (replay c (fun _ => .load q.size) (replayOrder xs) c.s h.reqs 40).Formed :=
        replay_formed (Ctx.s_formed hc)
      split
      · next e =>
        have h := formed_of_eq hr e
        exact Act.park_formed (mk_formed h)
      · next e =>
        have h := formed_of_eq hr e
        exact Act.ite_formed (Act.next_formed (mark_formed (mk_formed h))) (Act.trap_formed (mk_formed h))
      · next e =>
        have := formed_of_eq hr e
        split
        · exact Act.ite_formed (Act.next_formed (mark_formed (mk_formed this))) (Act.consume_formed (mk_formed this))
        · exact Act.next_formed (externalIf_formed (deliver_formed (mk_formed this)))
  have hbegin : ∀ c0 c av ids, c0.Formed → c.Formed → (begin' c0 c av ids).Formed := by
    intro c0 c av ids h0 hc
    simp only [begin']
    split
    · exact Act.ite_formed (Act.next_formed (mark_formed hc)) (Act.trap_formed h0)
    · exact hgo _ _ (with_formed hc)
  clear_value go begin'
  split
  · exact hgo _ _ hc
  · refine Ctx.gate_formed hc fun c0 h0 => ?_
    split
    · exact Act.park_formed h0
    · exact Act.trap_formed h0
    · next e => exact (formed_of_eq (Ctx.readAll_formed h0) e :)
    · next c₁ vals e =>
      have h₁ : c₁.Formed := (formed_of_eq (Ctx.readAll_formed h0) e :)
      have hr : (if isQueue q.x then c₁.reserve q.x q.regs else Reserve.ok c₁ []).Formed :=
        Reserve.ite_formed (reserve_formed h₁) (Reserve.ok_formed h₁)
      split
      · exact h0
      · next e => exact hbegin _ _ _ _ h0 (formed_of_eq hr e :)
      · next e => exact hbegin _ _ _ _ h0 (formed_of_eq hr e :)

theorem execLdx_formed {x a la z} (hs : s.Formed) : OutFormed (execLdx x a la z s) :=
  issued_formed hs fun _ h => Ctx.peerLoad_formed h

theorem execAtx_formed {x a la o} (hs : s.Formed) : OutFormed (execAtx x a la o s) := by
  simp only [execAtx]
  refine issued_formed hs fun c hc => Ctx.heldOp_formed hc (fun c0 h0 => Ctx.atomicStart_formed h0) fun c h hc => ?_
  split
  · exact Act.park_formed hc
  · exact Ctx.parkXlate_formed hc
  · exact Act.trap_formed hc
  · split
    · next e =>
      have h₁ := formed_of_eq (replay_formed (Ctx.s_formed hc)) e
      exact Act.park_formed (Ctx.mk_formed h₁)
    · next e =>
      have h₁ := formed_of_eq (replay_formed (Ctx.s_formed hc)) e
      exact Act.trap_formed (Ctx.external_formed (Ctx.putOld_formed (Ctx.mk_formed h₁)))
    · next e =>
      have h₁ := formed_of_eq (replay_formed (Ctx.s_formed hc)) e
      split
      · exact Act.consume_formed (Ctx.external_formed (Ctx.mk_formed h₁))
      · exact Act.next_formed (Ctx.externalIf_formed (Ctx.putOld_formed (Ctx.mk_formed h₁)))

/-! Commits (Commit.lean). -/

theorem frameOp_formed {a fits move} (hc : c.Formed) : (frameOp a fits move c).Formed :=
  Ctx.gate_formed hc fun _ h => Act.next_formed (Ctx.with_formed h)

theorem Ctx.performCommit_formed {L h fin} (hc : c.Formed) (hf : ∀ c, c.Formed → (fin c).Formed) :
    (c.performCommit L h fin).Formed := by
  have hg : (c.global fun s => (s.commit c.r.wave L h.seq false).1).Formed :=
    Ctx.global_formed hc fun s hs => State.commit_formed hs
  simp only [Ctx.performCommit]
  split
  · exact hf c hc
  · split
    · exact Act.park_formed hc
    · generalize hk : (if h.arrived = true then c else _) = k
      have : k.Formed := by
        subst hk
        exact ite_formed hc (externalIf_formed (with_formed hg))
      split
      · exact Act.park_formed this
      · exact Act.trap_formed this
      · exact hf _ (mk_formed (State.writeOutAll_formed (s_formed this)))

theorem Ctx.acquire_formed {L} (hc : c.Formed) : (c.acquire L).Formed :=
  mk_formed (State.writeOutAll_formed (s_formed hc))

theorem execCmt_formed {la v} (hs : s.Formed) : OutFormed (execCmt la v s) :=
  issued_formed hs fun _ h₁ => Ctx.heldOp_formed h₁ (fun _ _ => actExcFormed_ok)
    fun _ _ h₂ => Ctx.performCommit_formed h₂ fun _ h₃ => h₃

theorem execAbt_formed {x la v} (hs : s.Formed) : OutFormed (execAbt x la v s) :=
  issued_formed hs fun _ h₁ => Ctx.heldOp_formed h₁ (fun _ _ => actExcFormed_ok) fun _ _ h₂ => Act.ite_formed h₂
    (Act.next_formed (Ctx.setSpec_formed (Ctx.global_formed h₂ fun _ h₃ => State.abort_formed h₃)))

theorem execAcq_formed {la v} (hs : s.Formed) : OutFormed (execAcq la v s) :=
  issued_formed hs fun _ h₁ => Ctx.heldOp_formed h₁ (fun _ _ => actExcFormed_ok) fun _ _ h₂ => Act.next_formed
    (Ctx.acquire_formed h₂)

theorem execSync_formed {la v} (hs : s.Formed) : OutFormed (execSync la v s) :=
  issued_formed hs fun _ h₁ => Ctx.heldOp_formed h₁ (fun _ _ => actExcFormed_ok)
    fun _ _ h₂ => Ctx.performCommit_formed h₂ fun _ h₃ => Act.next_formed (Ctx.ite_formed h₃ (Ctx.acquire_formed h₃))

theorem execCstat_formed {d} (hs : s.Formed) : OutFormed (execCstat d s) :=
  issued_formed hs fun _ h₁ => Ctx.gate_formed h₁ fun _ h₂ => Act.ite_formed h₂
    (Act.next_formed (Ctx.setSpec_formed (Ctx.with_formed h₂)))

/-! Barriers (Barrier.lean). -/

theorem Ctx.cellOp_formed {n a perform} (hc : c.Formed) (hp : ∀ c h, c.Formed → (perform c h).Formed) :
    (c.cellOp n a perform).Formed := by
  refine Ctx.heldOp_formed hc (fun c0 h0 => ?_) hp
  split
  · exact actExcFormed_error (Act.trap_formed h0)
  · exact actExcFormed_ok

theorem Ctx.waitCell_formed {off arrival parity w} (hc : c.Formed) :
    (c.waitCell off arrival parity w).Formed := by
  simp only [Ctx.waitCell]
  split
  · exact fail_formed hc
  · refine Act.ite_formed (fail_formed hc) ?_
    split
    · exact Act.trap_formed hc
    · exact Act.next_formed (acquire_formed hc)
    · exact Act.ite_formed (Act.trap_formed hc) (Act.ite_formed (Act.next_formed (acquire_formed hc))
        (Act.park_formed hc))

theorem execBinit_formed {a la r k u} (hs : s.Formed) : OutFormed (execBinit a la r k u s) :=
  issued_formed hs fun _ h₁ => Ctx.cellOp_formed h₁ fun _ _ h₂ => Act.ite_formed h₂
    (Act.ite_formed h₂ (Act.next_formed (Ctx.mk_formed (State.updBlock_formed (Ctx.s_formed h₂)))))

theorem Ctx.arrive_formed {b off e remote k} (hc : c.Formed) (hk : ∀ c, c.Formed → (k c).Formed) :
    (c.arrive b off e remote k).Formed := by
  unfold Ctx.arrive
  split
  · exact fail_formed hc
  · next e => exact hk _ (Ctx.reload_formed (formed_of_eq (State.arriveThread_formed (Ctx.out_formed hc)) e :))

theorem execBarv_formed {x a la} (hs : s.Formed) : OutFormed (execBarv x a la s) :=
  issued_formed hs fun _ h₁ => Ctx.cellOp_formed h₁ fun _ _ h₂ => Ctx.arrive_formed h₂ fun _ h₃ => Act.next_formed
    (Ctx.setSpec_formed h₃)

theorem execBarw_formed {x a la g} (hs : s.Formed) : OutFormed (execBarw x a la g s) :=
  issued_formed hs fun _ h₁ => Ctx.cellOp_formed h₁ fun _ _ h₂ => Act.ite_formed (Ctx.waitCell_formed h₂)
    (Ctx.arrive_formed h₂ fun _ h₃ => Ctx.waitCell_formed (Ctx.with_formed (Ctx.setSpec_formed h₃)))

theorem execBrema_formed {x a la g} (hs : s.Formed) : OutFormed (execBrema x a la g s) := by
  simp only [execBrema]
  refine issued_formed hs fun _ h => Ctx.heldOp_formed h (fun _ h₁ => actExcFormed_error ?_) fun _ _ h₁ => ?_
  · split
    · exact Act.trap_formed h₁
    · exact Act.park_formed h₁
    · split
      · exact Act.trap_formed h₁
      · exact Act.hold_formed h₁
  · split
    · exact Act.trap_formed h₁
    · exact Act.park_formed h₁
    · split
      · exact Act.trap_formed h₁
      · exact Ctx.arrive_formed h₁ fun _ h₂ => Act.next_formed h₂

theorem execAexp_formed {x a la} (hs : s.Formed) : OutFormed (execAexp x a la s) := by
  refine issued_formed hs fun c hc => Ctx.cellOp_formed hc fun c h hc => ?_
  dsimp only
  split
  · exact Ctx.fail_formed hc
  · next e =>
    have := formed_of_eq (State.announce_formed (Ctx.out_formed hc)) e
    exact Act.next_formed (Ctx.setSpec_formed (Ctx.reload_formed this))

theorem execArel_formed {a la} (hs : s.Formed) : OutFormed (execArel a la s) := by
  refine issued_formed hs fun c hc => Ctx.cellOp_formed hc fun c h hc => ?_
  split
  · exact Ctx.fail_formed hc
  · next e =>
    have := formed_of_eq (State.release_formed (Ctx.out_formed hc)) e
    exact Act.next_formed (Ctx.reload_formed this)

/-! Copies (CopyInstr.lean). -/

theorem Ctx.unscreened_formed (hc : c.Formed) : c.unscreened.Formed :=
  ite_formed (global_formed hc fun _ h => State.unscreen_formed h) hc

theorem Ctx.issueCopy_formed {tok bs win} (hc : c.Formed) : (c.issueCopy tok bs win).Formed := by
  have huse : ∀ (s : State) (h : Option Nat), s.Formed →
      (match h with | some h => s.addUser c.w.core h | none => s).Formed := fun s h hs => by
    split
    · exact State.addUser_formed hs
    · exact hs
  have hissued : ∀ {k : Ctx} {p q : Prop} [Decidable p] [Decidable q], k.Formed →
      (if p then (k.externalIf (decide q)).unscreened else k.externalIf (decide q)).Formed := fun hk =>
    ite_formed (unscreened_formed (externalIf_formed hk)) (externalIf_formed hk)
  simp only [Ctx.issueCopy]
  refine Act.ite_formed (fail_formed hc) ?_
  split
  · exact Act.trap_formed hc
  · refine Act.ite_formed (Act.park_formed hc) (Act.ite_formed (protect_formed hc) ?_)
    split
    · exact Act.trap_formed hc
    · refine Act.ite_formed (fail_formed hc) (Act.ite_formed (Act.trap_formed (with_formed hc))
        (Act.ite_formed (fail_formed hc) (Act.ite_formed
        (Act.raw_formed (State.unscreen_formed (out_formed hc))) ?_)))
      split
      · exact Act.park_formed hc
      · refine Act.ite_formed (Act.next_formed (hissued (with_formed hc))) (Act.ite_formed (Act.park_formed hc) ?_)
        exact Act.next_formed (hissued (mk_formed (huse _ _ (huse _ _ (State.updCore_formed (s_formed hc))))))

theorem execAcpy_formed {a la t} (hs : s.Formed) : OutFormed (execAcpy a la t s) :=
  issued_formed hs fun _ h₁ => Ctx.gate_formed h₁ fun _ h₂ => Act.ite_formed h₂
    (Act.ite_formed h₂ (Act.ite_formed h₂ (Act.ite_formed h₂ (Act.ite_formed h₂ (Ctx.issueCopy_formed h₂)))))

theorem Ctx.acquireTokens_formed {l} (hc : c.Formed) : (c.acquireTokens l).Formed :=
  acquire_formed hc

theorem execCwait_formed {x a la} (hs : s.Formed) : OutFormed (execCwait x a la s) :=
  issued_formed hs fun _ h₁ => Ctx.gate_formed h₁ fun _ h₂ => Act.ite_formed h₂
    (Act.next_formed (Ctx.setSpec_formed (Ctx.with_formed (Ctx.acquireTokens_formed h₂))))

theorem execCpoll_formed {x a la} (hs : s.Formed) : OutFormed (execCpoll x a la s) :=
  issued_formed hs fun _ h₁ => Ctx.gate_formed h₁ fun _ h₂ => Act.next_formed
    (Ctx.setSpec_formed (Ctx.acquireTokens_formed h₂))

theorem execCpollE_formed {x a la} (hs : s.Formed) : OutFormed (execCpollE x a la s) :=
  issued_formed hs fun _ h₁ => Ctx.gate_formed h₁ fun _ h₂ => Act.next_formed
    (Ctx.setSpec64_formed (Ctx.with_formed h₂))

theorem State.copyEvent_formed {core idx} (hs : s.Formed) : (s.copyEvent core idx).Formed := by
  unfold State.copyEvent
  split
  · exact hs
  · dsimp only
    exact ite_formed (goEnd_formed (sweepBlock_formed (copyComplete_formed hs))) hs

end

end Sys2Proof.Machine
end

section
/-!
PROOFS. Stream commands and messages keep the canonical form of memory (R3, R165).
-/

namespace Sys2Proof.Machine

section
variable {s : State} {c : Ctx}

/-! Stream commands (Engine.lean). -/

theorem execSstart_formed {x a la} (hs : s.Formed) : OutFormed (execSstart x a la s) := by
  simp only [execSstart]
  refine issued_formed hs fun _ h => Ctx.heldOp_formed h (fun _ _ => actExcFormed_ok) fun _ _ h₁ => ?_
  split
  · exact Act.next_formed (Ctx.setSpec64_formed h₁)
  · exact Act.next_formed (Ctx.setSpec64_formed (Ctx.external_formed
      (Ctx.mk_formed (State.with_formed (Ctx.s_formed h₁)))))

theorem execSstop_formed {x la} (hs : s.Formed) : OutFormed (execSstop x la s) := by
  simp only [execSstop]
  refine issued_formed hs fun _ h => Ctx.heldOp_formed h (fun _ _ => actExcFormed_ok) fun _ _ h₁ => ?_
  split
  · exact Act.next_formed (Ctx.setSpec_formed h₁)
  · refine Act.ite_formed (Ctx.protect_formed h₁) ?_
    split
    · exact Act.next_formed (Ctx.setSpec_formed (Ctx.mk_formed (State.unbind_formed (Ctx.s_formed h₁))))
    · exact Act.ite_formed (Act.park_formed h₁) (Act.next_formed
        (Ctx.setSpec_formed (Ctx.mk_formed (State.unbind_formed (Ctx.s_formed h₁)))))

theorem execSstat_formed {x a la} (hs : s.Formed) : OutFormed (execSstat x a la s) :=
  issued_formed hs fun _ h₁ => Ctx.heldOp_formed h₁ (fun _ _ => actExcFormed_ok) fun _ _ h₂ => Act.next_formed
    (Ctx.setSpec64_formed h₂)

theorem CmdAct.state_formed {e k} {a : CmdAct} (ha : a.Formed) : (CmdAct.state e k a).Formed := by
  cases a with
  | next s x => exact State.updXctx_formed ha
  | jump s x pc => exact State.updXctx_formed ha
  | wait s x => exact State.updXctx_formed ha
  | skip s x last => exact State.updXctx_formed ha
  | fault s code addr => exact State.engineFault_formed ha
  | halt s => exact State.unbind_formed ha

/-- A stream command keeps the form where its body does. -/
theorem commanded_formed {body} (hs : s.Formed) (hb : ∀ s x, s.Formed → (body s x).Formed) :
    OutFormed (commanded s body) := by
  simp only [commanded]
  split
  · split
    · exact outFormed_refused
    · split
      · exact outFormed_next hs
      · exact CmdAct.state_formed (hb _ _ hs)
  · exact outFormed_refused

theorem execXloop_formed {k len count} (hs : s.Formed) : OutFormed (execXloop k len count s) :=
  commanded_formed hs fun _ _ h => CmdAct.ite_formed h (CmdAct.ite_formed h (CmdAct.ite_formed h h))

theorem execXstride_formed {k lo hi ds} (hs : s.Formed) : OutFormed (execXstride k lo hi ds s) :=
  commanded_formed hs fun _ _ h => CmdAct.ite_formed h
    (CmdAct.ite_formed h (CmdAct.ite_formed h (CmdAct.ite_formed h h)))

theorem execXslot_formed {slot kind blk off cell len} (hs : s.Formed) :
    OutFormed (execXslot slot kind blk off cell len s) :=
  commanded_formed hs fun _ _ h => CmdAct.ite_formed h h

theorem execXjump_formed {off} (hs : s.Formed) : OutFormed (execXjump off s) :=
  commanded_formed hs fun _ _ h => h

theorem execXhalt_formed (hs : s.Formed) : OutFormed (execXhalt s) :=
  commanded_formed hs fun _ _ h => h

theorem execXfence_formed (hs : s.Formed) : OutFormed (execXfence s) :=
  commanded_formed hs fun _ _ h => h

theorem State.fill_formed {x slot} (hs : s.Formed) : CmdExcFormed (s.fill x slot) := by
  simp only [State.fill]
  split
  · exact cmdExcFormed_error (CmdAct.fault_formed hs)
  · split
    · exact cmdExcFormed_error (CmdAct.wait_formed hs)
    · split
      · exact cmdExcFormed_error (CmdAct.fault_formed hs)
      · exact cmdExcFormed_error (CmdAct.fault_formed hs)
      · exact cmdExcFormed_error (CmdAct.wait_formed hs)
      · exact cmdExcFormed_error (CmdAct.wait_formed hs)
      · exact cmdExcFormed_ite (cmdExcFormed_ite (cmdExcFormed_error (CmdAct.fault_formed hs))
          (cmdExcFormed_ite (cmdExcFormed_error (CmdAct.fault_formed hs)) cmdExcFormed_ok))
          (cmdExcFormed_ite (cmdExcFormed_error (CmdAct.fault_formed hs)) cmdExcFormed_ok)

theorem State.useHandle_formed {x f} (hs : s.Formed) : (s.useHandle x f).1.Formed := by
  unfold State.useHandle
  split
  · dsimp only
    exact updXctx_formed (addUser_formed hs)
  · exact hs

theorem State.engineMiss_formed {x va write} (hs : s.Formed) : (s.engineMiss x va write).Formed :=
  CmdAct.wait_formed (parkFault_formed hs)

theorem State.writeMoves_formed {p base bs} (hs : s.Formed) : (s.writeMoves p base bs).Formed :=
  foldl_formed (foldl_formed hs fun _ _ h => writePlace_formed h) fun _ _ h => ite_formed (setPoison_formed h)
    (ite_formed (setPoison_formed h) h)

theorem State.lockFill_formed {x f lo n} (hs : s.Formed) : OptFormed (s.lockFill x f lo n) :=
  optFormed_ite optFormed_none (optFormed_some (updCore_formed hs))

theorem State.countFill_formed {x f base nc das} (hs : s.Formed) :
    ExcNatFormed (s.countFill x f base nc das) := by
  simp only [State.countFill]
  split
  · exact excNatFormed_ok hs
  · split
    · exact excNatFormed_error
    · next e =>
      have := formed_of_eq (State.countUnits_formed hs) e
      exact excNatFormed_ok (count_formed this)

theorem State.poisonFill_formed {x f base nc das h} (hs : s.Formed) :
    (s.poisonFill x f base nc das h).Formed := by
  have hf : ExcNatFormed (if das.isEmpty then .ok s else s.countFill x f base nc das) :=
    excNatFormed_ite (excNatFormed_ok hs) (countFill_formed hs)
  simp only [State.poisonFill]
  refine State.wakeCell_formed (State.updBlock_formed ?_)
  split
  · next e => exact (formed_of_eq hf e :)
  · exact hs

theorem State.transfer_formed {x f place base lo n nc ms} (hs : s.Formed) :
    (s.transfer x f place base lo n nc ms).Formed := by
  have hu : (s.useHandle x f).1.Formed := useHandle_formed hs
  simp only [State.transfer]
  generalize s.useHandle x f = u at hu
  split
  · exact CmdAct.fault_formed (poisonFill_formed hu)
  · split
    · split
      · exact CmdAct.wait_formed hu
      · next e =>
        have := formed_of_eq (State.lockFill_formed hu) e
        exact CmdAct.wait_formed this
    · split
      · exact engineMiss_formed hu
      · exact CmdAct.fault_formed (writeMoves_formed hu)
      · split
        · exact CmdAct.wait_formed (writeMoves_formed hu)
        · split
          · exact CmdAct.fault_formed (writeMoves_formed hu)
          · next e =>
            have := formed_of_eq (State.countFill_formed (State.writeMoves_formed hu)) e
            exact CmdAct.next_formed (unlockFill_formed this)

theorem execXfer_formed {slot nc dp soff nb nr sp} (hs : s.Formed) :
    OutFormed (execXfer slot nc dp soff nb nr sp s) := by
  refine commanded_formed hs fun s x hs => ?_
  split
  · next e => exact (formed_of_eq (State.fill_formed hs) e :)
  · refine CmdAct.ite_formed (CmdAct.next_formed hs) ?_
    dsimp only
    exact CmdAct.ite_formed (CmdAct.fault_formed hs) (State.transfer_formed hs)

theorem State.gatherIndex_formed {x va n} (hs : s.Formed) : CmdExcFormed (s.gatherIndex x va n) := by
  induction n generalizing va with
  | zero => exact trivial
  | succ n ih =>
    have := ih (va := va + 4)
    simp only [State.gatherIndex]
    split
    · exact cmdExcFormed_error (CmdAct.fault_formed hs)
    · split
      · exact cmdExcFormed_error (engineMiss_formed hs)
      · exact cmdExcFormed_error (CmdAct.fault_formed hs)
      · split
        · next e => exact cmdExcFormed_error (formed_of_eq this e :)
        · exact cmdExcFormed_ok

theorem execXgather_formed {slot nc dp ioff nb nr ip} (hs : s.Formed) :
    OutFormed (execXgather slot nc dp ioff nb nr ip s) := by
  simp only [execXgather]
  refine commanded_formed hs fun s x hs => ?_
  split
  · next e => exact (formed_of_eq (State.fill_formed hs) e :)
  · next f e =>
    have hu : (s.useHandle x f).1.Formed := State.useHandle_formed hs
    split
    · exact CmdAct.fault_formed hs
    · split
      · exact CmdAct.next_formed hs
      · split
        · next e => exact (formed_of_eq (State.gatherIndex_formed hu) e :)
        · exact CmdAct.ite_formed (CmdAct.fault_formed hu) (State.transfer_formed hu)

theorem execXscale_formed {slot nc soff doff nb} (hs : s.Formed) :
    OutFormed (execXscale slot nc soff doff nb s) := by
  simp only [execXscale]
  refine commanded_formed hs fun s x hs => ?_
  split
  · next e => exact (formed_of_eq (State.fill_formed hs) e :)
  · exact CmdAct.ite_formed (CmdAct.fault_formed hs)
      (CmdAct.ite_formed (CmdAct.fault_formed hs) (CmdAct.ite_formed (CmdAct.fault_formed hs)
      (State.transfer_formed hs)))

theorem execXarrive_formed {slot units} (hs : s.Formed) : OutFormed (execXarrive slot units s) := by
  refine commanded_formed hs fun s x hs => ?_
  split
  · next e => exact (formed_of_eq (State.fill_formed hs) e :)
  · split
    · exact CmdAct.fault_formed hs
    · split
      · exact CmdAct.fault_formed hs
      · split
        · exact CmdAct.fault_formed hs
        · split
          · exact CmdAct.fault_formed hs
          · next e =>
            have := formed_of_eq (State.countUnits_formed hs) e
            exact CmdAct.next_formed this

theorem xwaitOnce_formed {cond off value mask x} (hs : s.Formed) :
    (xwaitOnce cond off value mask s x).Formed := by
  unfold xwaitOnce
  refine CmdAct.ite_formed (CmdAct.fault_formed hs) ?_
  split
  · exact CmdAct.fault_formed hs
  · split
    · exact State.engineMiss_formed hs
    · exact CmdAct.fault_formed hs
    · dsimp only
      exact CmdAct.ite_formed (CmdAct.next_formed hs) (CmdAct.wait_formed hs)

theorem execXflag_formed {off value} (hs : s.Formed) : OutFormed (execXflag off value s) := by
  simp only [execXflag]
  refine commanded_formed hs fun _ _ h => ?_
  split
  · exact CmdAct.fault_formed h
  · split
    · exact State.engineMiss_formed h
    · exact CmdAct.fault_formed h
    · exact CmdAct.next_formed (State.foldl_formed h fun _ _ h₁ => State.writeHome_formed h₁)

theorem execUnassignedCommandCode_formed {w} (hs : s.Formed) :
    OutFormed (execUnassignedCommandCode w s) :=
  commanded_formed hs fun _ _ h => h

/-! Messages (Messages.lean). -/

theorem State.fireTimer_formed {fn asid n} (hs : s.Formed) : (s.fireTimer fn asid n).Formed := by
  simp only [State.fireTimer]
  refine ite_formed hs ?_
  split
  · exact ite_formed (input_formed (updWave_formed (foldl_formed (updContext_formed hs) fun _ _ h => input_formed
      (updWave_formed h)))) (foldl_formed (updContext_formed hs) fun _ _ h => input_formed (updWave_formed h))
  · exact foldl_formed (updContext_formed hs) fun _ _ h => input_formed (updWave_formed h)

theorem execTarm_formed {a b} (hs : s.Formed) : OutFormed (execTarm a b s) :=
  issued_formed hs fun _ h₁ => Ctx.heldOp_formed h₁ (fun _ _ => actExcFormed_ok) fun _ _ h₂ => Act.next_formed
    (Ctx.global_formed (Ctx.mk_formed (State.updContext_formed (Ctx.s_formed h₂)))
    fun _ h₃ => State.fireTimer_formed h₃)

theorem execTwait_formed {d a} (hs : s.Formed) : OutFormed (execTwait d a s) :=
  issued_formed hs fun _ h₁ => Ctx.gate_formed h₁ fun _ h₂ => Act.ite_formed (Act.next_formed (Ctx.setSpec_formed h₂))
    (Act.ite_formed (Act.next_formed (Ctx.setSpec_formed h₂)) h₂)

theorem execTimerFire_formed {fn asid n} (hs : s.Formed) : OutFormed (execTimerFire fn asid n s) :=
  outFormed_next (State.ite_formed (State.fireTimer_formed hs) hs)

theorem State.arriveMessage_formed {fn q src tag rby da payload sender} (hs : s.Formed) :
    (s.arriveMessage fn q src tag rby da payload sender).1.Formed := by
  simp only [State.arriveMessage]
  refine fst_ite_formed hs ?_
  split
  · exact hs
  · exact fst_ite_formed hs (fst_ite_formed hs (fst_ite_formed hs (fst_formed (updContext_formed hs))))

theorem execMessageArrival_formed {fn q src tag rby da payload} (hs : s.Formed) :
    OutFormed (execMessageArrival fn q src tag rby da payload s) :=
  outFormed_ite hs (outFormed_next (State.with_formed (State.fst_ite_formed hs (State.arriveMessage_formed hs))))

theorem execMessageDeliverable_formed {fn asid q} (hs : s.Formed) :
    OutFormed (execMessageDeliverable fn asid q s) := by
  simp only [execMessageDeliverable]
  split
  · exact outFormed_next hs
  · exact outFormed_next (State.ite_formed (State.with_formed hs) hs)

theorem execMsggo_formed {fn q} (hs : s.Formed) : OutFormed (execMsggo fn q s) :=
  outFormed_ite hs (outFormed_next (State.updFunction_formed (State.arriveMessage_formed hs)))

theorem execRecv_formed {x a la b q} (hs : s.Formed) : OutFormed (execRecv x a la b q s) := by
  refine issued_formed hs fun c hc => Ctx.heldOp_formed hc (fun c hc => ?_) fun c h hc => ?_
  · split
    · exact actExcFormed_error (Act.trap_formed hc)
    · exact actExcFormed_ok
  · dsimp only
    refine Act.ite_formed ?_ (Act.ite_formed (Act.next_formed (Ctx.setSpec_formed hc)) (Act.park_formed hc))
    split
    · exact Act.next_formed (Ctx.setSpec_formed (Ctx.mk_formed
        (State.writeBytes_formed (State.updContext_formed (Ctx.s_formed hc)))))
    · exact Act.park_formed hc

theorem State.sendHost_formed {fn asid h payload} (hs : s.Formed) :
    (s.sendHost fn asid h payload).Formed := by
  simp only [State.sendHost]
  refine Sent.ite_formed (Sent.status_formed hs) (Sent.ite_formed (Sent.status_formed hs) ?_)
  split
  · exact Sent.miss_formed
  · exact Sent.status_formed hs
  · exact Sent.status_formed (updFunction_formed (writeVirt_formed hs))

theorem State.sendNode_formed {fn asid wave h hdr payload} (hs : s.Formed) :
    (s.sendNode fn asid wave h hdr payload).Formed := by
  simp only [State.sendNode]
  refine Sent.ite_formed (Sent.status_formed hs) ?_
  split
  · exact Sent.status_formed (arriveMessage_formed hs)
  · exact Sent.ite_formed (Sent.status_formed hs) (Sent.request_formed (with_formed hs))

theorem execMsend_formed {x a la} (hs : s.Formed) : OutFormed (execMsend x a la s) := by
  simp only [execMsend]
  refine issued_formed hs fun c hc => Ctx.heldOp_formed hc (fun c0 h0 => ?_) fun c h hc => ?_
  · refine actExcFormed_ite (actExcFormed_error (Act.next_formed h0)) ?_
    split
    · exact actExcFormed_error (Act.trap_formed h0)
    · refine actExcFormed_ite (actExcFormed_error (Act.consume_formed h0))
        (actExcFormed_ite (actExcFormed_error (Ctx.fail_formed h0)) ?_)
      split
      · exact actExcFormed_error (Act.trap_formed h0)
      · exact actExcFormed_ite (actExcFormed_error (Act.consume_formed h0)) actExcFormed_ok
  · split
    · split
      · exact Act.park_formed hc
      · exact Act.next_formed (Ctx.setSpec_formed (Ctx.external_formed
          (Ctx.mk_formed (State.updContext_formed (Ctx.s_formed hc)))))
    · split
      · next e =>
        have h₁ := formed_of_eq (Sent.ite_formed (State.sendHost_formed (Ctx.s_formed hc))
          (State.sendNode_formed (Ctx.s_formed hc))) e
        exact Act.next_formed (Ctx.setSpec_formed (Ctx.external_formed (Ctx.mk_formed (State.updContext_formed h₁))))
      · next e =>
        have h₁ := formed_of_eq (Sent.ite_formed (State.sendHost_formed (Ctx.s_formed hc))
          (State.sendNode_formed (Ctx.s_formed hc))) e
        exact Act.park_formed (Ctx.mk_formed h₁)
      · exact Act.park_formed (Ctx.mk_formed (State.parkFault_formed (Ctx.s_formed hc)))

theorem State.checkPatience_formed {fn asid i} (hs : s.Formed) :
    (s.checkPatience fn asid i).Formed := by
  simp only [State.checkPatience]
  split
  · exact hs
  · refine ite_formed hs (ite_formed ?_ (ite_formed hs (postEvent_formed (updContext_formed hs))))
    split
    · exact updContext_formed (with_formed (updContext_formed hs))
    · exact with_formed (updContext_formed hs)

theorem execPatienceLow_formed {fn asid contract} (hs : s.Formed) :
    OutFormed (execPatienceLow fn asid contract s) :=
  outFormed_next (State.checkPatience_formed hs)

theorem execDeferReceive_formed {fn asid t e} (hs : s.Formed) :
    OutFormed (execDeferReceive fn asid t e s) :=
  outFormed_next (State.updContext_formed hs)

end

end Sys2Proof.Machine
end

section
/-!
PROOFS. Stops, migration, placement, the scheduler and the partition keep the canonical form of memory (R3, R165).
-/

namespace Sys2Proof.Machine

section
variable {s : State} {c : Ctx}

/-! Stops (Stops.lean). -/

theorem State.fireTimers_formed {fn asid} (hs : s.Formed) : (s.fireTimers fn asid).Formed :=
  foldl_formed hs fun _ _ h => fireTimer_formed h

theorem State.refreshRunning_formed (hs : s.Formed) : s.refreshRunning.Formed :=
  with_formed (foldl_formed hs fun _ _ h => fireTimers_formed h)

theorem State.saveEngines_formed {lid} (hs : s.Formed) : (s.saveEngines lid).Formed :=
  foldl_formed hs fun _ _ h => updXctx_formed (with_formed (unlockFill_formed h))

theorem State.resumeEngines_formed {p} (hs : s.Formed) : (s.resumeEngines p).Formed :=
  with_formed hs

theorem State.writeArea_formed {fn asid va bs n} (hs : s.Formed) :
    (s.writeArea fn asid va bs n).Formed := by
  induction n generalizing s va bs with
  | zero => exact hs
  | succ n ih =>
    unfold State.writeArea
    extract_lets n s₁
    have h₁ : s₁.Formed := by
      unfold s₁
      split
      · exact writeBytes_formed hs
      · exact hs
    exact ite_formed h₁ (ih h₁)

theorem State.writeRecord_formed {b} (hs : s.Formed) : (s.writeRecord b).Formed := by
  simp only [State.writeRecord]
  split
  · exact hs
  · exact updBlock_formed (writeArea_formed hs)

theorem State.flushStack_formed {w} (hs : s.Formed) : (s.flushStack w).Formed := by
  simp only [State.flushStack]
  refine foldl_formed hs fun _ _ h => ite_formed (updWave_formed h) ?_
  split
  · exact updWave_formed (writeLine_formed h)
  · exact h

theorem State.forget_formed {core ws} (hs : s.Formed) : (s.forget core ws).Formed :=
  updCore_formed hs

theorem State.saveBlock_formed {b} (hs : s.Formed) : (s.saveBlock b).Formed :=
  ite_formed (sweepBlock_formed hs) (writeRecord_formed
    (updBlock_formed (foldl_formed (forget_formed (dropFaults_formed
    (updCluster_formed (updCore_formed (writeOutAll_formed (foldl_formed hs fun _ _ h => flushStack_formed h))))))
    fun _ _ h => updWave_formed h)))

theorem State.discardBlock_formed {b} (hs : s.Formed) : (s.discardBlock b).Formed :=
  ite_formed (sweepBlock_formed hs) (updBlock_formed
    (releaseBlock_formed (foldl_formed (forget_formed
    (dropFaults_formed (foldl_formed (foldl_formed hs fun _ _ h => abort_formed h) fun _ _ h => foldl_formed h
    fun _ _ h₁ => foldl_formed h₁ fun _ _ h₂ => dropUser_formed h₂))) fun _ _ h => updWave_formed h)))

theorem State.stopBlocks_formed {bs} (hs : s.Formed) : (s.stopBlocks bs).Formed :=
  foldl_formed (foldl_formed hs fun _ _ h => discardBlock_formed h) fun _ _ h => saveBlock_formed h

theorem State.noRoom_formed {q} (hs : s.Formed) : (s.noRoom q).Formed :=
  postEvent_formed (refreshRunning_formed (updQueue_formed hs))

theorem State.finishBlock_formed {b} (hs : s.Formed) : (s.finishBlock b).Formed :=
  ite_formed hs (ite_formed (noRoom_formed (foldl_formed hs fun _ _ h => updBlock_formed h))
    (resumeEngines_formed (foldl_formed (saveEngines_formed hs) fun _ _ h => saveBlock_formed h)))

theorem State.unmap_formed {q} (hs : s.Formed) : (s.unmap q).Formed :=
  refreshRunning_formed (updQueue_formed hs)

theorem State.finishStop_formed {q} (hs : s.Formed) : (s.finishStop q).Formed :=
  ite_formed (noRoom_formed hs) (unmap_formed (foldl_formed (stopBlocks_formed hs) fun _ _ h => saveEngines_formed h))

theorem State.finishDrain_formed {q} (hs : s.Formed) : (s.finishDrain q).Formed :=
  ite_formed (unmap_formed hs) hs

theorem State.stopQueue_formed {q save} (hs : s.Formed) : (s.stopQueue q save).Formed :=
  ite_formed hs (ite_formed (ite_formed (finishStop_formed (updQueue_formed hs)) (updQueue_formed hs))
    (ite_formed hs (finishDrain_formed (foldl_formed (updQueue_formed hs) fun _ _ h => discardBlock_formed h))))

theorem execPreemption_formed {queue save} (hs : s.Formed) :
    OutFormed (execPreemption queue save s) :=
  outFormed_next (State.stopQueue_formed hs)

theorem State.stopContext_formed {fn asid save} (hs : s.Formed) :
    (s.stopContext fn asid save).Formed :=
  refreshRunning_formed (foldl_formed hs fun _ _ h => stopQueue_formed h)

theorem execDebuggerStop_formed {fn asid} (hs : s.Formed) :
    OutFormed (execDebuggerStop fn asid s) :=
  outFormed_next (State.stopContext_formed (State.updContext_formed hs))

theorem execResume_formed {fn asid} (hs : s.Formed) : OutFormed (execResume fn asid s) :=
  outFormed_next (State.refreshRunning_formed (State.updContext_formed hs))

/-! Migration (Migration.lean). -/

theorem State.adopt_formed {r gap} (hs : s.Formed) : (s.adopt r gap).Formed :=
  mk_formed (Memories.mk_formed (Memories.dev_formed (memories_formed hs))
    (Memories.host_formed (memories_formed hs)))

theorem execMigrationExport_formed {fn asid} (hs : s.Formed) :
    OutFormed (execMigrationExport fn asid s) :=
  outFormed_ite hs (outFormed_ite (outFormed_next (State.stopContext_formed (State.updContext_formed hs)))
    (outFormed_next (State.updContext_formed (State.with_formed hs))))

theorem execMigrationImport_formed {fn asid gap} (hs : s.Formed) :
    OutFormed (execMigrationImport fn asid gap s) := by
  simp only [execMigrationImport]
  split
  · exact outFormed_next hs
  · split
    · exact outFormed_ite (outFormed_next (State.updContext_formed (State.with_formed hs)))
        (outFormed_ite (outFormed_next (State.adopt_formed (State.with_formed hs)))
        (outFormed_next (State.with_formed hs)))
    · exact outFormed_next (State.adopt_formed (State.with_formed hs))

/-! Placement (Placement.lean). -/

theorem State.cleanBlock_formed {b} (hs : s.Formed) : (s.cleanBlock b).Formed :=
  mk_formed (Memories.mk_formed (Memories.dev_formed (memories_formed hs))
    (Memories.host_formed (memories_formed hs)))

theorem State.startFresh_formed {b core} (hs : s.Formed) : (s.startFresh b core).Formed :=
  updBlock_formed (cleanBlock_formed (ite_formed (updCore_formed
    (with_formed (foldl_formed hs fun _ _ h => updWave_formed h)))
    (updLaunch_formed (updCore_formed (with_formed (foldl_formed hs fun _ _ h => updWave_formed h))))))

theorem State.restoreGang_formed {b} (hs : s.Formed) : (s.restoreGang b).Formed :=
  foldl_formed hs fun _ _ h => updBlock_formed (updCluster_formed h)

theorem State.readmit_formed {b core} (hs : s.Formed) : (s.readmit b core).Formed :=
  writeOutAll_formed (restoreGang_formed (updBlock_formed
    (foldl_formed (updCore_formed hs) fun _ _ h => updWave_formed h)))

theorem State.chooseScreen_formed {b} (hs : s.Formed) : (s.chooseScreen b).Formed :=
  ite_formed hs (ite_formed (with_formed hs) (ite_formed (count_formed (with_formed (with_formed hs)))
    (with_formed (updBlock_formed (with_formed hs)))))

theorem State.placeBlock_formed {b core} (hs : s.Formed) : (s.placeBlock b core).Formed :=
  ite_formed (readmit_formed (updBlock_formed (with_formed hs)))
    (startFresh_formed (chooseScreen_formed (updBlock_formed (with_formed hs))))

theorem execBlockPlace_formed {block} (hs : s.Formed) : OutFormed (execBlockPlace block s) := by
  unfold execBlockPlace
  split
  · refine outFormed_ite (outFormed_next hs) ?_
    split
    · exact outFormed_next (State.placeBlock_formed hs)
    · exact outFormed_next hs
  · exact outFormed_next hs

theorem execSpinPreemption_formed {block} (hs : s.Formed) :
    OutFormed (execSpinPreemption block s) := by
  simp only [execSpinPreemption]
  refine outFormed_ite (outFormed_next hs) ?_
  split
  · exact outFormed_next hs
  · split
    · exact outFormed_next (State.placeBlock_formed
        (State.foldl_formed (State.foldl_formed hs fun _ _ h => State.updBlock_formed h)
        fun _ _ h => State.finishBlock_formed h))
    · exact outFormed_next (State.foldl_formed (State.foldl_formed hs fun _ _ h => State.updBlock_formed h)
        fun _ _ h => State.finishBlock_formed h)

/-! Scheduling (Sched.lean). -/

theorem State.mapQueue_formed {q slot} (hs : s.Formed) : (s.mapQueue q slot).Formed :=
  refreshRunning_formed (resumeEngines_formed (with_formed (updQueue_formed hs)))

theorem execSlotGrant_formed {queue} (hs : s.Formed) : OutFormed (execSlotGrant queue s) := by
  simp only [execSlotGrant]
  split
  · exact outFormed_ite (outFormed_next (State.mapQueue_formed hs)) (outFormed_next hs)
  · exact outFormed_next hs

theorem State.grantSlots_formed {fns n} (hs : s.Formed) : (s.grantSlots fns n).Formed := by
  induction n generalizing s with
  | zero => exact hs
  | succ n ih =>
    simp only [State.grantSlots]
    split
    · exact ih (mapQueue_formed hs)
    · exact hs

theorem execRotationRound_formed (hs : s.Formed) : OutFormed (execRotationRound s) := by
  unfold execRotationRound
  refine State.grantSlots_formed (State.foldl_formed
    (State.foldl_formed (State.foldl_formed (State.with_formed hs) fun _ _ h => State.updQueue_formed h)
    fun _ _ h => State.unmap_formed h) fun _ _ h => ?_)
  dsimp only
  exact State.foldl_formed h fun _ _ h₁ => State.stopQueue_formed h₁

theorem execSliceEnd_formed (hs : s.Formed) : OutFormed (execSliceEnd s) := by
  simp only [execSliceEnd]
  refine outFormed_ite (outFormed_next hs) ?_
  split
  · exact outFormed_next hs
  · split
    · exact outFormed_next (State.with_formed hs)
    · exact outFormed_ite (outFormed_next (State.with_formed hs))
        (outFormed_next (State.refreshRunning_formed
        (State.foldl_formed (State.with_formed hs) fun _ _ h => State.stopQueue_formed h)))

theorem execHostWake_formed {fn value} (hs : s.Formed) : OutFormed (execHostWake fn value s) :=
  outFormed_ite hs (outFormed_ite hs (outFormed_next
    (State.ite_formed (State.with_formed hs) (State.postEvent_formed (State.with_formed hs)))))

theorem State.takePacket_formed {q chained} (hs : s.Formed) : (s.takePacket q chained).Formed :=
  ite_formed (updQueue_formed hs) (devWrite_formed hs)

theorem State.rejectPacket_formed {q ring code chained} (hs : s.Formed) :
    (s.rejectPacket q ring code chained).Formed :=
  completion_formed (takePacket_formed hs)

theorem State.acceptPacket_formed {q ring chained e p} (hs : s.Formed) :
    (s.acceptPacket q ring chained e p).Formed := by
  simp only [State.acceptPacket]
  refine refreshRunning_formed (with_formed (updContext_formed ?_))
  split
  · exact ite_formed (updContext_formed (takePacket_formed hs)) (takePacket_formed hs)
  · exact with_formed (takePacket_formed hs)

theorem State.packetMiss_formed {q va} (hs : s.Formed) : (s.packetMiss q va).Formed :=
  updQueue_formed (parkFault_formed hs)

theorem execPacketAccept_formed {queue} (hs : s.Formed) : OutFormed (execPacketAccept queue s) := by
  simp only [execPacketAccept]
  refine outFormed_ite (outFormed_next hs) (outFormed_ite (outFormed_next hs) ?_)
  split
  · exact outFormed_next hs
  · refine outFormed_ite (outFormed_next (State.stopQueue_formed (State.postEvent_formed hs))) ?_
    split
    · exact outFormed_next (State.packetMiss_formed hs)
    · exact outFormed_next (State.rejectPacket_formed hs)
    · refine outFormed_ite (outFormed_next (State.rejectPacket_formed hs))
        (outFormed_ite (outFormed_next (State.acceptPacket_formed hs)) ?_)
      split
      · exact outFormed_next (State.packetMiss_formed hs)
      · exact outFormed_next (State.rejectPacket_formed hs)
      · exact outFormed_next (State.acceptPacket_formed hs)

theorem execGrowGrant_formed {wave} (hs : s.Formed) : OutFormed (execGrowGrant wave s) := by
  simp only [execGrowGrant]
  split
  · exact outFormed_next hs
  · split
    · next e =>
      have := formed_of_eq (Ctx.of?_formed hs) e
      exact outFormed_next (Act.state_formed (Ctx.grow_formed this))
    · exact outFormed_next hs

theorem execHostEndsLaunch_formed {launch} (hs : s.Formed) :
    OutFormed (execHostEndsLaunch launch s) :=
  outFormed_ite hs (outFormed_next (State.endLaunch_formed (State.endNote_formed hs)))

theorem State.stepSlot_formed {q} (hs : s.Formed) : (s.stepSlot q).Formed := by
  unfold State.stepSlot
  refine ite_formed hs ?_
  split
  · exact mapQueue_formed hs
  · exact hs

theorem execSingleStep_formed {wave slice entry} (hs : s.Formed) :
    OutFormed (execSingleStep wave slice entry s) := by
  simp only [execSingleStep]
  refine outFormed_ite (outFormed_next hs) (outFormed_ite (outFormed_next hs) ?_)
  split
  · exact outFormed_next hs
  · exact outFormed_ite (outFormed_next hs) (outFormed_next
      (State.with_formed (State.refreshRunning_formed
      (State.updContext_formed (State.placeBlock_formed (State.stepSlot_formed hs))))))

/-! Partition (Partition.lean). -/

theorem State.extendMr_formed {i d} (hs : s.Formed) : (s.extendMr i d).Formed :=
  with_formed hs

theorem State.respond_formed {fn bs} (hs : s.Formed) : (s.respond fn bs).Formed :=
  with_formed hs

theorem State.refuseVendor_formed {fn} (hs : s.Formed) : (s.refuseVendor fn).Formed := by
  simp only [State.refuseVendor]
  refine with_formed ?_
  split
  · exact respond_formed hs
  · exact hs

theorem State.teardown_formed {fn} (hs : s.Formed) : (s.teardown fn).Formed :=
  refreshRunning_formed (refuseVendor_formed (updFunction_formed
    (with_formed (foldl_formed (cutCopies_formed (foldl_formed hs fun _ _ h => endContext_formed h))
    fun _ _ h => ite_formed (goEnd_formed h) h))))

theorem execTeardownComplete_formed {vf} (hs : s.Formed) : OutFormed (execTeardownComplete vf s) := by
  unfold execTeardownComplete
  split
  · exact outFormed_next hs
  · exact outFormed_ite (outFormed_next hs) (State.postEvent_formed (State.with_formed (State.updFunction_formed hs)))

theorem State.writeVf_formed {vf num v} (hs : s.Formed) : OptFormed (s.writeVf vf num v) :=
  optFormed_ite optFormed_none (optFormed_ite optFormed_none
    (optFormed_ite optFormed_none (optFormed_ite (optFormed_some (teardown_formed (updFunction_formed hs)))
    (optFormed_ite (optFormed_some (refreshRunning_formed
    (foldl_formed (updFunction_formed hs) fun _ _ h => stopQueue_formed h)))
    (optFormed_ite (optFormed_some (extendMr_formed (updFunction_formed hs)))
    (optFormed_some (updFunction_formed hs)))))))

theorem State.orSame_formed {r} (hs : s.Formed) (hr : OptFormed r) : (s.orSame r).Formed :=
  ite_formed hs (optFormed_getD hr hs)

theorem State.writeVfsel_formed {v} (hs : s.Formed) : OptFormed (s.writeVfsel v) :=
  optFormed_ite optFormed_none (optFormed_some (with_formed hs))

theorem execVfsel_formed {value} (hs : s.Formed) : OutFormed (execVfsel value s) :=
  outFormed_next (State.orSame_formed hs (State.writeVfsel_formed hs))

theorem State.hostEnd_formed {lid} (hs : s.Formed) : (s.hostEnd lid).Formed :=
  endLaunch_formed (endNote_formed hs)

theorem State.writeCrst_formed {v} (hs : s.Formed) : (s.writeCrst v).Formed := by
  simp only [State.writeCrst]
  generalize (if v.getLsbD 7 then Config.physFn else v.toNat % 128) = fn
  split
  · exact hs
  · split
    · exact State.updFunction_formed hs
    · refine State.refreshRunning_formed (State.recreate_formed
        (State.updContext_formed (State.endContext_formed ?_)))
      exact State.foldl_formed (State.updFunction_formed hs) fun s l hs => State.hostEnd_formed hs

theorem execCrst_formed {value} (hs : s.Formed) : OutFormed (execCrst value s) :=
  outFormed_next (State.writeCrst_formed hs)

theorem State.hypervisorClaim_formed {hcl} (hs : s.Formed) : (s.hypervisorClaim hcl).Formed :=
  with_formed hs

theorem State.writeClaim_formed {fn asid v host} (hs : s.Formed) :
    (s.writeClaim fn asid v host).Formed :=
  updContext_formed (ite_formed (hypervisorClaim_formed hs) hs)

theorem execCounterClaim_formed {fn asid value} (hs : s.Formed) :
    OutFormed (execCounterClaim fn asid value s) :=
  outFormed_next (State.writeClaim_formed hs)

theorem execHypervisorClaim_formed {hcl} (hs : s.Formed) : OutFormed (execHypervisorClaim hcl s) :=
  outFormed_next (State.hypervisorClaim_formed hs)

theorem State.answerPeer_formed {id a} (hs : s.Formed) : (s.answerPeer id a).Formed := by
  unfold State.answerPeer
  split
  · exact hs
  · dsimp only
    split
    · exact countNak_formed (with_formed hs)
    · exact updFunction_formed (with_formed hs)
    · exact hs

theorem State.servePeer_formed {fn node off ask own} (hs : s.Formed) :
    (s.servePeer fn node off ask own).Formed := by
  have hp : (s.peerAccess fadd32 fn off ask).1.Formed := peerAccess_formed hs
  simp only [State.servePeer]
  split
  · next e =>
    rw [e] at hp
    split
    · exact answerPeer_formed hp
    · exact with_formed hp
  · next e =>
    rw [e] at hp
    exact parkPeer_formed hp

theorem execPeerRequest_formed {fn node off ask} (hs : s.Formed) :
    OutFormed (execPeerRequest fn node off ask s) :=
  outFormed_next (State.servePeer_formed hs)

theorem execPeerReply_formed {req answer} (hs : s.Formed) :
    OutFormed (execPeerReply req answer s) :=
  outFormed_next (State.answerPeer_formed hs)

theorem execReservationLapse_formed {req} (hs : s.Formed) :
    OutFormed (execReservationLapse req s) := by
  unfold execReservationLapse
  split
  · exact outFormed_next hs
  · refine outFormed_ite (outFormed_next hs) ?_
    split
    · exact outFormed_next (State.answerPeer_formed hs)
    · exact outFormed_next (State.with_formed hs)
    · exact outFormed_next hs

theorem State.countSymbols_formed {lane n} (hs : s.Formed) : (s.countSymbols lane n).Formed :=
  ite_formed (record_formed (with_formed hs)) (with_formed hs)

theorem execFlitReceive_formed {port intact lane symbols} (hs : s.Formed) :
    OutFormed (execFlitReceive port intact lane symbols s) :=
  outFormed_ite (outFormed_next (State.with_formed (State.ite_formed hs (State.countSymbols_formed hs))))
    (outFormed_ite (outFormed_next (State.with_formed (State.ite_formed hs (State.countSymbols_formed hs))))
    (outFormed_next (State.postEvent_formed (State.with_formed
    (State.ite_formed hs (State.countSymbols_formed hs))))))

theorem State.sendSlots_formed {port n} (hs : s.Formed) : (s.sendSlots port n).Formed :=
  with_formed hs

theorem State.hostStore_formed {a bs} (hs : s.Formed) : (s.hostStore a bs).Formed :=
  writeBytes_formed (writeOuts_formed hs)

theorem execHostCoherenceInvalidation_formed {sector bytes} (hs : s.Formed) :
    OutFormed (execHostCoherenceInvalidation sector bytes s) :=
  outFormed_next (State.hostStore_formed (State.writeOuts_formed hs))

theorem execEviction_formed {core cluster sector} (hs : s.Formed) :
    OutFormed (execEviction core cluster sector s) :=
  outFormed_next (State.writeOuts_formed hs)

theorem State.deliverLoads_formed {lo hi w} (hs : s.Formed) : (s.deliverLoads lo hi w).Formed := by
  simp only [State.deliverLoads]
  split
  · exact hs
  · exact foldl_formed hs fun _ _ h => loadReturn_formed h

theorem execTlbInvalidation_formed {fn asid lo hi} (hs : s.Formed) :
    OutFormed (execTlbInvalidation fn asid lo hi s) :=
  outFormed_ite hs (outFormed_next (State.with_formed
    (State.flushEgress_formed (State.foldl_formed (State.with_formed hs) fun _ _ h => State.deliverLoads_formed h))))

theorem execTranslationFill_formed {die req} (hs : s.Formed) :
    OutFormed (execTranslationFill die req s) := by
  unfold execTranslationFill
  split
  · exact outFormed_next hs
  · dsimp only
    split
    · exact outFormed_next (State.updWave_formed (State.with_formed hs))
    · exact outFormed_next (State.updCore_formed (State.with_formed hs))
    · exact outFormed_next (State.updXctx_formed (State.with_formed hs))
    · exact outFormed_next (State.updQueue_formed (State.with_formed hs))
    · exact outFormed_next (State.sendReports_formed (State.updQueue_formed (State.with_formed hs)))
    · exact outFormed_next (State.servePeer_formed (State.with_formed hs))

theorem execFaultBufferRetry_formed {die} (hs : s.Formed) :
    OutFormed (execFaultBufferRetry die s) := by
  unfold execFaultBufferRetry
  refine State.ite_formed (State.foldl_formed (State.with_formed hs) fun _ _ h => ?_)
    (State.foldl_formed (State.foldl_formed (State.with_formed hs) fun _ _ h => ?_)
    fun _ _ h => State.sendReports_formed h)
  · split
    · exact State.servePeer_formed h
    · exact h
  · split
    · exact State.servePeer_formed h
    · exact h

end

end Sys2Proof.Machine
end

section
/-!
PROOFS. Reliability events, boot and the registers keep the canonical form of memory (R3, R165).
-/

namespace Sys2Proof.Machine

section
variable {s : State} {c : Ctx}

/-! Reliability (Reliability.lean). -/

theorem State.rollOne_formed {core t w} (hs : s.Formed) : (s.rollOne core t w).Formed := by
  simp only [State.rollOne]
  split
  · exact hs
  · exact updWave_formed hs

theorem State.withdraw_formed {core t ws} (hs : s.Formed) : (s.withdraw core t ws).Formed :=
  updCore_formed (foldl_formed hs fun _ _ h => dropUser_formed h)

theorem State.rollback_formed {core t} (hs : s.Formed) : (s.rollback core t).Formed :=
  foldl_formed (with_formed (updCore_formed (foldl_formed (withdraw_formed (undoEnds_formed hs))
    fun _ _ h => rollOne_formed h))) fun _ _ h => count_formed h

theorem State.exclude_formed {core} (hs : s.Formed) : (s.exclude core).Formed :=
  with_formed hs

theorem State.countStrike_formed {core} (hs : s.Formed) : (s.countStrike core).Formed :=
  with_formed hs

theorem State.degrade_formed {core} (hs : s.Formed) : (s.degrade core).Formed := by
  unfold State.degrade
  exact record_formed (exclude_formed (foldl_formed hs fun _ _ h => updBlock_formed h))

theorem State.strike_formed {core} (hs : s.Formed) : (s.strike core).Formed :=
  ite_formed hs (ite_formed (degrade_formed (record_formed
    (countStrike_formed (updCore_formed (rollback_formed hs)))))
    (record_formed (countStrike_formed (updCore_formed (rollback_formed hs)))))

theorem execStrikeReport_formed {core} (hs : s.Formed) : OutFormed (execStrikeReport core s) :=
  outFormed_next (State.strike_formed hs)

theorem execUncoreStrike_formed {die} (hs : s.Formed) : OutFormed (execUncoreStrike die s) :=
  State.record_formed (State.with_formed hs)

theorem execReplayCheck_formed {core quadrant entry recomputed} (hs : s.Formed) :
    OutFormed (execReplayCheck core quadrant entry recomputed s) := by
  unfold execReplayCheck
  split
  · exact outFormed_next hs
  · dsimp only
    exact outFormed_ite (outFormed_next (State.updCore_formed hs))
      (outFormed_next (State.ite_formed (State.strike_formed (State.record_formed (State.updCore_formed hs)))
      (State.record_formed (State.updCore_formed hs))))

theorem execScreenCompare_formed {screen} (hs : s.Formed) :
    OutFormed (execScreenCompare screen s) := by
  unfold execScreenCompare
  split
  · exact outFormed_next hs
  · exact outFormed_ite (outFormed_next hs) (State.ite_formed (State.with_formed hs)
      (State.record_formed (State.with_formed hs)))

theorem execScreenAbandon_formed {screen} (hs : s.Formed) :
    OutFormed (execScreenAbandon screen s) := by
  unfold execScreenAbandon
  split
  · exact outFormed_next hs
  · exact outFormed_next (State.ite_formed (State.abandonScreen_formed hs) hs)

theorem State.markLine_formed {core k} (hs : s.Formed) : (s.markLine core k).Formed := by
  simp only [State.markLine]
  refine with_formed ?_
  split
  · exact ite_formed hs (takeLine_formed hs)
  · exact hs

theorem State.eccMark_formed {p site} (hs : s.Formed) : (s.eccMark p site).Formed := by
  simp only [State.eccMark]
  split
  · exact with_formed (setPoison_formed hs)
  · exact elim_formed (updWave_formed hs) fun _ => with_formed (updWave_formed hs)
  · exact ite_formed (with_formed (markLine_formed hs)) hs
  · exact hs

theorem State.summarise_formed {due} (hs : s.Formed) : (s.summarise due).Formed :=
  with_formed (foldl_formed hs fun _ _ h => record_formed h)

theorem State.countCorrected_formed {unit loc bank row col device} (hs : s.Formed) :
    (s.countCorrected unit loc bank row col device).Formed :=
  ite_formed (record_formed (with_formed (summarise_formed hs))) (with_formed (summarise_formed hs))

theorem execEccError_formed {place bank col row corrected} (hs : s.Formed) :
    OutFormed (execEccError place bank col row corrected s) :=
  outFormed_next (State.ite_formed hs (State.ite_formed (State.countCorrected_formed hs) (State.eccMark_formed hs)))

theorem execCorrectedSummary_formed (hs : s.Formed) : OutFormed (execCorrectedSummary s) :=
  outFormed_next (State.summarise_formed hs)

theorem State.traceSample_formed {fn asid core} (hs : s.Formed) :
    (s.traceSample fn asid core).Formed := by
  simp only [State.traceSample]
  refine ite_formed hs ?_
  split
  · exact hs
  · exact trace_formed hs

theorem execTraceSample_formed {fn asid core} (hs : s.Formed) :
    OutFormed (execTraceSample fn asid core s) :=
  outFormed_next (State.traceSample_formed hs)

theorem State.flushLanes_formed {fn asid} (hs : s.Formed) : (s.flushLanes fn asid).Formed :=
  updContext_formed (writeVirt_formed hs)

theorem execLcFlush_formed {fn asid} (hs : s.Formed) : OutFormed (execLcFlush fn asid s) :=
  outFormed_next (State.flushLanes_formed hs)

theorem State.writeLcctl_formed {fn asid v} (hs : s.Formed) : OptFormed (s.writeLcctl fn asid v) :=
  optFormed_ite optFormed_none (optFormed_some (ite_formed (flushLanes_formed (updContext_formed hs))
    (updContext_formed hs)))

theorem State.writeStest_formed {v} (hs : s.Formed) : OptFormed (s.writeStest v) :=
  optFormed_ite optFormed_none (optFormed_ite (optFormed_some (with_formed hs)) (optFormed_some (with_formed hs)))

theorem execSelfTestStart_formed {core} (hs : s.Formed) : OutFormed (execSelfTestStart core s) :=
  outFormed_next (State.orSame_formed hs (State.writeStest_formed hs))

theorem execSelfTestRun_formed {pass} (hs : s.Formed) : OutFormed (execSelfTestRun pass s) :=
  outFormed_ite (outFormed_next hs) (outFormed_next
    (State.ite_formed (State.updCore_formed (State.writeOuts_formed (State.with_formed hs)))
    (State.record_formed (State.exclude_formed (State.updCore_formed
    (State.writeOuts_formed (State.with_formed hs)))))))

theorem State.dump_formed (hs : s.Formed) : s.dump.Formed := by
  simp only [State.dump]
  split
  · exact with_formed hs
  · split
    · exact ite_formed (with_formed hs) (with_formed hs)
    · exact ite_formed (with_formed hs) (ite_formed (with_formed hs)
        (ite_formed (with_formed (writeVirt_formed hs)) (with_formed (writeVirt_formed hs))))

theorem execDumpStart_formed (hs : s.Formed) : OutFormed (execDumpStart s) :=
  outFormed_next (State.ite_formed (State.dump_formed hs) hs)

theorem State.startDump_formed {fn asid hi} (hs : s.Formed) : OptFormed (s.startDump fn asid hi) :=
  optFormed_ite optFormed_none (optFormed_some (with_formed hs))

/-! Boot and attestation (Trust.lean). -/

/-- A module reset empties device memory and leaves host memory (R406). -/
theorem State.resetModule_formed {boot} (hs : s.Formed) : (s.resetModule boot).Formed :=
  State.mk_formed (Memories.mk_formed Mem.nil_formed (Memories.host_formed (State.memories_formed hs)))

theorem State.boot_formed (hs : s.Formed) : s.boot.Formed := by
  simp only [State.boot]
  split
  · exact State.with_formed hs
  · split
    · exact State.with_formed hs
    · refine State.with_formed (State.extendMr_formed (State.with_formed ?_))
      exact State.extendMr_formed (State.extendMr_formed (State.extendMr_formed (State.with_formed hs)))

theorem execModuleReset_formed (hs : s.Formed) : OutFormed (execModuleReset s) :=
  outFormed_next (State.boot_formed (State.resetModule_formed hs))

theorem execThermalTrip_formed (hs : s.Formed) : OutFormed (execThermalTrip s) :=
  outFormed_next (State.resetModule_formed hs)

theorem State.loadFirmware_formed {digest} (hs : s.Formed) : (s.loadFirmware digest).Formed :=
  ite_formed (extendMr_formed hs) hs

theorem execSvminRaise_formed {version signed} (hs : s.Formed) :
    OutFormed (execSvminRaise version signed s) :=
  outFormed_next (State.ite_formed (State.with_formed hs) hs)

theorem State.recoveryProgram_formed (hs : s.Formed) : s.recoveryProgram.Formed :=
  ite_formed hs (ite_formed (with_formed hs) (ite_formed (with_formed hs) (with_formed hs)))

theorem execRecoveryProgram_formed (hs : s.Formed) : OutFormed (execRecoveryProgram s) :=
  outFormed_next (State.recoveryProgram_formed hs)

theorem execRecoveryProgramDone_formed {result} (hs : s.Formed) :
    OutFormed (execRecoveryProgramDone result s) :=
  outFormed_ite hs (outFormed_next (State.ite_formed
    (State.boot_formed (State.resetModule_formed (State.with_formed hs))) (State.with_formed hs)))

theorem State.recoveryReset_formed (hs : s.Formed) : s.recoveryReset.Formed :=
  ite_formed hs (ite_formed (with_formed hs) (boot_formed (resetModule_formed hs)))

theorem execRecoveryReset_formed (hs : s.Formed) : OutFormed (execRecoveryReset s) :=
  outFormed_next (State.recoveryReset_formed hs)

theorem State.writeRecovery_formed {off v} (hs : s.Formed) : (s.writeRecovery off v).Formed := by
  unfold State.writeRecovery
  split
  · exact with_formed hs
  · exact with_formed hs
  · exact ite_formed (recoveryProgram_formed hs) (ite_formed (recoveryReset_formed hs) hs)
  · exact hs

theorem State.mailbox_formed {fn f} (hs : s.Formed) (hf : ∀ s, s.Formed → (f s).Formed) :
    (s.mailbox fn f).Formed := by
  unfold State.mailbox
  split
  · exact hf s hs
  · exact hs

theorem execNegotiateAlgorithms_formed {fn} (hs : s.Formed) :
    OutFormed (execNegotiateAlgorithms fn s) :=
  outFormed_next (State.mailbox_formed hs fun _ h => State.respond_formed (State.with_formed h))

theorem execGetMeasurements_formed {fn index nonce} (hs : s.Formed) :
    OutFormed (execGetMeasurements fn index nonce s) :=
  outFormed_next (State.mailbox_formed hs fun _ h => State.ite_formed (State.respond_formed h)
    (State.respond_formed h))

theorem State.vendorEffect_formed {fn cmd payload} (hs : s.Formed) :
    (s.vendorEffect fn cmd payload).Formed := by
  unfold State.vendorEffect
  split
  · exact extendMr_formed hs
  · exact updFunction_formed hs
  · exact updFunction_formed hs

theorem State.vendor_formed {fn cmd status payload} (hs : s.Formed) :
    (s.vendor fn cmd status payload).Formed :=
  ite_formed (respond_formed hs) (ite_formed (with_formed hs) (respond_formed (vendorEffect_formed hs)))

theorem State.vendorFinish_formed {fn} (hs : s.Formed) : (s.vendorFinish fn).Formed := by
  unfold State.vendorFinish
  split
  · exact hs
  · dsimp only
    exact ite_formed (respond_formed (with_formed hs)) (respond_formed (vendorEffect_formed (with_formed hs)))

/-! Registers (Registers.lean). -/

theorem State.writeHinv_formed {v} (hs : s.Formed) : OptFormed (s.writeHinv v) :=
  optFormed_ite optFormed_none (optFormed_ite hs (optFormed_some
    (with_formed (updCore_formed (updHandle_formed hs)))))

theorem execHinv_formed {value} (hs : s.Formed) : OutFormed (execHinv value s) :=
  outFormed_next (State.orSame_formed hs (State.writeHinv_formed hs))

theorem State.setTrace_formed {fn asid f} (hs : s.Formed) : OptFormed (s.setTrace fn asid f) :=
  optFormed_some (updContext_formed hs)

theorem State.writeTvec_formed {fn asid hi} (hs : s.Formed) : OptFormed (s.writeTvec fn asid hi) :=
  optFormed_ite optFormed_none (optFormed_some (updContext_formed hs))

theorem State.writeCevt_formed {fn asid priv n v} (hs : s.Formed) :
    OptFormed (s.writeCevt fn asid priv n v) :=
  optFormed_ite optFormed_none (optFormed_some (updContext_formed hs))

theorem State.writeSys_formed {fn asid priv n v} (hs : s.Formed) :
    OptFormed (s.writeSys fn asid priv n v) := by
  simp only [State.writeSys]
  refine optFormed_ite (writeCevt_formed hs) (optFormed_ite (writeVf_formed hs) ?_)
  split
  · exact optFormed_some (writeClaim_formed hs)
  · exact optFormed_ite (setTrace_formed hs) optFormed_none
  · exact optFormed_ite (setTrace_formed hs) optFormed_none
  · exact setTrace_formed hs
  · exact optFormed_ite (setTrace_formed hs) optFormed_none
  · exact setTrace_formed hs
  · exact optFormed_ite (setTrace_formed hs) optFormed_none
  · exact setTrace_formed hs
  · exact optFormed_some (updContext_formed hs)
  · exact writeTvec_formed hs
  · exact writeLcctl_formed hs
  · exact optFormed_ite (optFormed_some (updContext_formed hs)) optFormed_none
  · exact optFormed_some (updContext_formed hs)
  · exact writeVfsel_formed hs
  · exact writeHinv_formed hs
  · exact optFormed_ite optFormed_none (optFormed_some (with_formed hs))
  · exact optFormed_ite optFormed_none (optFormed_some (with_formed hs))
  · exact writeStest_formed hs
  · exact optFormed_some (with_formed hs)
  · exact startDump_formed hs
  · exact optFormed_some hs

theorem Ctx.writeSys_formed {n v} (hc : c.Formed) : OptCtxFormed (c.writeSys n v) := by
  have hw : OptFormed (c.out.writeSys c.fn c.asid c.priv n v) := State.writeSys_formed (out_formed hc)
  unfold Ctx.writeSys
  split
  · exact optCtxFormed_ite optCtxFormed_none (optCtxFormed_some (with_formed hc))
  · exact optCtxFormed_map hw fun s hs => Ctx.reload_formed hs

theorem execSysw_formed {a x} (hs : s.Formed) : OutFormed (execSysw a x s) := by
  refine issued_formed hs fun c hc => Ctx.heldOp_formed hc (fun c0 h0 => actExcFormed_ok) fun c h hc => ?_
  split
  · next e => exact (formed_of_eq (Ctx.writeSys_formed hc) e :)
  · exact Ctx.fail_formed hc

theorem stateOf_formed {o} (hs : s.Formed) (ho : OutFormed o) : (stateOf s o).Formed := by
  unfold stateOf
  split
  · exact ho
  · exact hs

theorem State.writePage_formed {fn off v} (hs : s.Formed) : (s.writePage fn off v).Formed := by
  simp only [State.writePage]
  refine ite_formed (ite_formed hs (writeRecovery_formed hs)) (ite_formed hs (ite_formed (updFunction_formed hs) ?_))
  split
  · exact stateOf_formed hs (execHostWake_formed hs)
  · exact updFunction_formed hs
  · exact updFunction_formed hs
  · exact updFunction_formed hs
  · exact updFunction_formed hs
  · exact ite_formed (updFunction_formed hs) hs
  · exact updFunction_formed hs
  · exact stateOf_formed hs (execMsggo_formed hs)
  · exact ite_formed hs (with_formed hs)
  · exact ite_formed hs (with_formed hs)
  · exact ite_formed hs (with_formed hs)
  · exact ite_formed (ite_formed hs (with_formed hs)) hs
  · exact ite_formed hs (with_formed hs)
  · exact ite_formed hs (writeCrst_formed hs)
  · exact hs

theorem execRegisterWrite_formed {target value} (hs : s.Formed) :
    OutFormed (execRegisterWrite target value s) := by
  cases target with
  | page fn off => exact outFormed_next (State.writePage_formed hs)
  | sys fn asid num => exact outFormed_ite hs (outFormed_next (State.orSame_formed hs (State.writeSys_formed hs)))

end

end Sys2Proof.Machine
end

section
/-!
PROOFS. The system instructions, the accounts and the matrix instructions keep the canonical form of memory (R3, R165).
-/

namespace Sys2Proof.Machine

section
variable {s : State} {c : Ctx}

/-! System instructions (System.lean). -/

theorem execTrap_formed {i} (hs : s.Formed) : OutFormed (execTrap i s) :=
  issued_formed hs fun _ h₁ => Ctx.gate_formed h₁ fun _ h₂ => Act.ite_formed h₂
    (Act.ite_formed h₂ (Act.trap_formed (Ctx.with_formed h₂)))

theorem execTret_formed (hs : s.Formed) : OutFormed (execTret s) := by
  refine issued_formed hs fun c hc => Ctx.gate_formed hc fun c hc => ?_
  split
  · exact Ctx.fail_formed hc
  · dsimp only
    exact Act.ite_formed (Act.trap_formed hc) (Act.raw_formed (Ctx.out_formed (Ctx.returnTrap_formed hc)))

theorem execMark_formed {a} (hs : s.Formed) : OutFormed (execMark a s) :=
  issued_formed hs fun _ h₁ => Ctx.heldOp_formed h₁ (fun _ _ => actExcFormed_ok) fun _ _ h₂ => Act.next_formed
    (Ctx.mk_formed (State.trace_formed (Ctx.s_formed h₂)))

theorem execSucc_formed {a b} (hs : s.Formed) : OutFormed (execSucc a b s) :=
  issued_formed hs fun _ h₁ => Ctx.heldOp_formed h₁ (fun _ _ => actExcFormed_ok) fun _ _ h₂ => Act.next_formed
    (Ctx.external_formed (Ctx.mk_formed (State.updLaunch_formed (Ctx.s_formed h₂))))

theorem State.spawn_formed {lid r} (hs : s.Formed) : (s.spawn lid r).Formed :=
  with_formed (updLaunch_formed hs)

theorem execSpawn_formed {x a la} (hs : s.Formed) : OutFormed (execSpawn x a la s) := by
  refine issued_formed hs fun c hc => Ctx.heldOp_formed hc (fun c hc => ?_) fun c h hc => ?_
  · split
    · exact actExcFormed_error (Act.next_formed hc)
    · dsimp only
      split
      · exact actExcFormed_error (Act.trap_formed hc)
      · exact actExcFormed_ite (actExcFormed_error (Act.consume_formed hc))
          (actExcFormed_ite (actExcFormed_error (Ctx.fail_formed hc))
          (actExcFormed_ite (actExcFormed_error (Ctx.protect_formed hc)) actExcFormed_ok))
  · dsimp only
    exact Act.ite_formed (Ctx.protect_formed hc) (Act.next_formed
      (Ctx.setSpec_formed (Ctx.external_formed (Ctx.mk_formed (State.spawn_formed (Ctx.s_formed hc))))))

theorem execShld_formed {a la n} (hs : s.Formed) : OutFormed (execShld a la n s) := by
  simp only [execShld]
  refine issued_formed hs fun _ h => Ctx.gate_formed h fun _ h₁ => Act.ite_formed (Act.trap_formed h₁) ?_
  split
  · exact Act.park_formed h₁
  · exact Act.trap_formed h₁
  · exact Ctx.parkXlate_formed h₁
  · split
    · exact Act.consume_formed h₁
    · exact Act.next_formed (Ctx.with_formed (Ctx.fillTlbs_formed h₁))

theorem Ctx.waitv_formed {x a la cond} (hc : c.Formed) : (c.waitv x a la cond).Formed := by
  simp only [Ctx.waitv]
  refine heldOp_formed hc (fun c hc => ?_) fun c h hc => ?_
  · split
    · exact actExcFormed_ok
    · exact actExcFormed_error (parkXlate_formed hc)
    · exact actExcFormed_error (Act.trap_formed hc)
    · exact actExcFormed_error (Act.park_formed hc)
  · split
    · exact parkXlate_formed hc
    · exact Act.trap_formed hc
    · exact Act.park_formed hc
    · split
      · exact Act.consume_formed hc
      · exact Act.ite_formed (Act.next_formed (watched_formed
          (externalIf_formed (mk_formed (State.strongReads_formed (s_formed hc))))))
          (Act.park_formed (externalIf_formed (mk_formed (State.strongReads_formed (s_formed hc)))))

theorem execUnassignedOpcode_formed {w} (hs : s.Formed) : OutFormed (execUnassignedOpcode w s) :=
  issued_formed hs fun _ h => h

theorem badOperand_formed (hs : s.Formed) : OutFormed (badOperand s) :=
  issued_formed hs fun _ h => h

theorem execFetchFault_formed {stop} (hs : s.Formed) : OutFormed (execFetchFault stop s) := by
  refine issued_formed hs fun c hc => ?_
  split
  · exact Act.trap_formed hc
  · exact Act.trap_formed hc
  · exact Ctx.parkXlate_formed hc

theorem execLoadReturn_formed {wave load} (hs : s.Formed) :
    OutFormed (execLoadReturn wave load s) :=
  outFormed_next (State.loadReturn_formed hs)

theorem State.settleWave_formed {w} (hs : s.Formed) : (s.settleWave w).Formed :=
  goEnd_formed (finishBlock_formed (retireWave_formed (updWave_formed (settleStores_formed hs))))

theorem execSettleWindowExpiry_formed {wave} (hs : s.Formed) :
    OutFormed (execSettleWindowExpiry wave s) :=
  outFormed_next (State.settleWave_formed hs)

theorem execCopyComplete_formed {core idx} (hs : s.Formed) :
    OutFormed (execCopyComplete core idx s) :=
  outFormed_next (State.copyEvent_formed hs)

/-! Accounts (Account.lean). -/

theorem State.keepReplay_formed {i} (hs : s.Formed) : (s.keepReplay c i).Formed := by
  unfold State.keepReplay
  split
  · dsimp only
    exact ite_formed hs (updCore_formed hs)
  · exact hs

theorem State.keepSnapshot_formed {t w} (ht : t.Formed) : (State.keepSnapshot t s w).Formed :=
  ite_formed ht (updCore_formed ht)

theorem State.keepPerformed_formed {h} (hs : s.Formed) : (s.keepPerformed c h).Formed :=
  updCore_formed hs

theorem State.sample_formed {n} (hs : s.Formed) : (s.sample n).Formed :=
  foldl_formed hs fun _ _ h₁ => ite_formed (foldl_formed h₁ fun _ _ h₂ => foldl_formed h₂
    fun _ _ h₃ => traceSample_formed h₃) h₁

theorem State.tick_formed {n iss} (hs : s.Formed) : (s.tick n iss).Formed :=
  elapse_formed (with_formed (sample_formed (refreshRunning_formed hs)))

theorem State.accountIssue_formed {i} (hs : s.Formed) : (s.accountIssue c i).Formed :=
  ite_formed hs (updWave_formed (count_formed hs))

theorem State.endStep_formed {a} (hs : s.Formed) : (s.endStep c a).Formed :=
  ite_formed (updContext_formed hs) hs

theorem State.account_formed {i} (hs : s.Formed) : (s.account c i).Formed := by
  simp only [State.account]
  refine ite_formed (unscreen_formed (ite_formed (keepReplay_formed ?_) ?_)) (ite_formed (keepReplay_formed ?_) ?_)
  · split
    · exact ite_formed (keepPerformed_formed (endStep_formed hs)) (endStep_formed hs)
    · exact ite_formed (endStep_formed hs) (accountIssue_formed (endStep_formed hs))
  · split
    · exact ite_formed (keepPerformed_formed (endStep_formed hs)) (endStep_formed hs)
    · exact ite_formed (endStep_formed hs) (accountIssue_formed (endStep_formed hs))
  · split
    · exact ite_formed (keepPerformed_formed (endStep_formed hs)) (endStep_formed hs)
    · exact ite_formed (endStep_formed hs) (accountIssue_formed (endStep_formed hs))
  · split
    · exact ite_formed (keepPerformed_formed (endStep_formed hs)) (endStep_formed hs)
    · exact ite_formed (endStep_formed hs) (accountIssue_formed (endStep_formed hs))

theorem State.drainOne_formed {r i} (hs : s.Formed) : (s.drainOne r i).Formed := by
  simp only [State.drainOne]
  split
  · exact hs
  · next c e =>
    have hc : c.Formed := (formed_of_eq (Ctx.of?_formed hs) e :)
    split
    · exact hs
    · split
      · exact hs
      · split
        · exact hs
        · exact Ctx.out_formed (Ctx.externalIf_formed (Ctx.global_formed hc fun s hs => State.commitWhere_formed hs))

/-! Matrix instructions (Matrix.lean). -/

theorem Ctx.matrixGroups_formed {grouped b w2} (hc : c.Formed) :
    ActExcFormed (c.matrixGroups grouped b w2) :=
  actExcFormed_ite actExcFormed_ok (actExcFormed_ite hc
    (actExcFormed_ite hc (actExcFormed_ite hc (actExcFormed_ite hc actExcFormed_ok))))

theorem Ctx.matrixStep_formed {b gs cw a part} (hc : c.Formed) :
    (c.matrixStep b gs cw a part).Formed :=
  State.foldl_formed (s_formed hc) fun _ _ h => State.writeBytes_formed h

theorem Ctx.dropUsers_formed {h} (hc : c.Formed) : (c.dropUsers h).Formed :=
  mk_formed (State.foldl_formed (s_formed hc) fun _ _ h₁ => State.dropUser_formed h₁)

theorem matrixOp_formed {x a la r grouped} (hc : c.Formed) : (matrixOp x a la r grouped c).Formed := by
  simp only [matrixOp]
  refine Ctx.heldOp_formed hc (fun c0 h0 => ?_) fun c h hc => ?_
  · split
    · next e => exact (formed_of_eq (Ctx.matrixGroups_formed h0) e :)
    · split
      · exact actExcFormed_error (Act.trap_formed h0)
      · split
        · exact actExcFormed_error (Act.hold_formed
            (Ctx.mk_formed (State.count_formed (State.foldl_formed (Ctx.s_formed h0)
            fun _ _ h => State.addUser_formed h))))
        · split
          · exact actExcFormed_error (Act.park_formed h0)
          · exact actExcFormed_error (Act.trap_formed h0)
          · next e =>
            have h := formed_of_eq (Ctx.readAll_formed h0) e
            exact actExcFormed_error (Act.consume_formed h)
          · next e =>
            have h := formed_of_eq (Ctx.readAll_formed h0) e
            exact actExcFormed_error (Act.hold_formed
              (Ctx.mk_formed (State.count_formed (State.foldl_formed (Ctx.s_formed h)
              fun _ _ h₁ => State.addUser_formed h₁))))
  · split
    · exact Act.consume_formed (Ctx.dropUsers_formed hc)
    · exact Act.next_formed (Ctx.dropUsers_formed (Ctx.mk_formed (Ctx.matrixStep_formed hc)))

theorem execCpack_formed {x a la u d} (hs : s.Formed) : OutFormed (execCpack x a la u d s) := by
  unfold execCpack
  refine issued_formed hs fun c hc => Ctx.heldOp_formed hc (fun c0 h0 => ?_) fun c h hc => ?_
  · split
    · exact actExcFormed_error (Act.trap_formed h0)
    · dsimp only
      exact actExcFormed_ite (actExcFormed_error (Act.trap_formed h0))
        (actExcFormed_ite (actExcFormed_error (Act.trap_formed h0))
        (actExcFormed_ite (actExcFormed_error (Act.trap_formed h0)) actExcFormed_ok))
  · extract_lets p rows int32 bs v sigma e tile c₁ c₂
    have h₁ : c₁.Formed := by
      unfold c₁
      split
      · exact Ctx.ite_formed hc (Ctx.foldl_formed hc fun _ _ h₁ => Ctx.setVec_formed h₁)
      · exact Ctx.mk_formed (State.writeBytes_formed (Ctx.s_formed hc))
    have h₂ : c₂.Formed := by
      unfold c₂
      split
      · exact Ctx.ite_formed (Ctx.setUni_formed h₁) h₁
      · exact h₁
    split
    · exact Act.consume_formed (Ctx.dropUsers_formed hc)
    · exact Act.next_formed (Ctx.dropUsers_formed h₂)

theorem execCrd_formed {x a la g} (hs : s.Formed) : OutFormed (execCrd x a la g s) := by
  refine issued_formed hs fun c hc => ?_
  dsimp only
  refine Ctx.gate_formed hc fun _ h => ?_
  split
  · exact Act.trap_formed h
  · refine Act.ite_formed (Ctx.fail_formed h) ?_
    split
    · exact Act.consume_formed h
    · exact Act.next_formed (Ctx.foldl_formed h fun _ _ h₁ => Ctx.setVec_formed h₁)

theorem execCwr_formed {x a la g} (hs : s.Formed) : OutFormed (execCwr x a la g s) := by
  refine issued_formed hs fun c hc => ?_
  dsimp only
  refine Ctx.heldOp_formed hc (fun _ h => ?_) fun _ _ h => Act.next_formed
    (Ctx.mk_formed (State.foldl_formed (Ctx.s_formed h) fun _ _ h₁ => State.writeBytes_formed h₁))
  split
  · exact actExcFormed_error (Act.trap_formed h)
  · exact actExcFormed_ite (actExcFormed_error (Ctx.fail_formed h)) actExcFormed_ok

theorem execCzero_formed {a la} (hs : s.Formed) : OutFormed (execCzero a la s) := by
  simp only [execCzero]
  refine issued_formed hs fun c hc => Ctx.heldOp_formed hc (fun c0 h0 => ?_) fun c h hc => ?_
  · split
    · exact actExcFormed_error (Act.trap_formed h0)
    · exact actExcFormed_ite (actExcFormed_error (Ctx.fail_formed h0)) actExcFormed_ok
  · exact Act.next_formed (Ctx.mk_formed (State.writeBytes_formed (Ctx.s_formed hc)))

theorem execThal_formed {x a la k} (hs : s.Formed) : OutFormed (execThal x a la k s) := by
  simp only [execThal]
  refine issued_formed hs fun c hc => Ctx.heldOp_formed hc (fun c0 h0 => ?_) fun c h hc => ?_
  · exact actExcFormed_ite (actExcFormed_error (Act.trap_formed h0)) actExcFormed_ok
  · split
    · exact Act.next_formed (Ctx.setSpec_formed hc)
    · exact Act.next_formed (Ctx.setSpec_formed (Ctx.mk_formed (State.updHandle_formed (Ctx.s_formed hc))))

theorem execThfree_formed {a la} (hs : s.Formed) : OutFormed (execThfree a la s) := by
  refine issued_formed hs fun c hc => Ctx.heldOp_formed hc (fun c hc => ?_) fun c h hc => ?_
  · split
    · exact actExcFormed_error (Act.trap_formed hc)
    · exact actExcFormed_ok
  · split
    · exact Act.trap_formed hc
    · exact Act.next_formed (Ctx.mk_formed (State.updHandle_formed (Ctx.s_formed hc)))

end

end Sys2Proof.Machine
end

section
/-!
PROOFS. Every instruction, and so every step, keeps the canonical form of memory (R3, R165); the state after a module
reset.
-/

namespace Sys2Proof.Machine

section
variable {s : State} {c : Ctx}

/-! Dispatch (Dispatch.lean). -/

/-- Instructions that come down to one shared operation are settled together by its lemma; every other instruction has a
lemma of its own above. -/
theorem exec_formed {i} (hs : s.Formed) : OutFormed (exec i s) := by
  cases i
  all_goals unfold exec
  case ldi | ldih | mov | sel | aadd | amad | fcls | cvt | pack2 | dot4 | rdlane | rqnt =>
    exact issued_formed hs fun _ h => LaneOp.run_formed h
  case iadd | isub | imul | imulh | imad | imin | imax | iabs | ineg =>
    exact issued_formed hs fun _ h => intOp_formed h
  case idiv | irem =>
    exact issued_formed hs fun _ h => divOp_formed h
  case and | or | xor | andn | shl | shr | sar | rol | popc | clz | ctz | brev | bfx | bfi =>
    exact issued_formed hs fun _ h => bitOp_formed h
  case icmp | fcmp =>
    exact issued_formed hs fun _ h => Ctx.compare_formed h
  case fadd | fsub | fmul | ffma | ffms | frnd | fdiv | frcp | fsqrt =>
    exact issued_formed hs fun _ h => roundOp_formed h
  case fmin | fmax | fabs | fneg =>
    exact issued_formed hs fun _ h => floatOp_formed h
  case frsq | fexp2 | flog2 | fsin | fcos | ftanh =>
    exact issued_formed hs fun _ h => fixedOp_formed h
  case shfl | shflx | shflu | shfld | qswapx | qswapy | qswapd | qbcst =>
    exact issued_formed hs fun _ h => shuffle_formed h
  case vany | vall | vbal =>
    exact issued_formed hs fun _ h => vote_formed h
  case actm | sysr | thchk =>
    exact issued_formed hs fun _ h₁ => Ctx.gate_formed h₁ fun _ h₂ => Act.next_formed (Ctx.setSpec_formed h₂)
  case redw | scanw | qred =>
    exact issued_formed hs fun _ h₁ => Ctx.gate_formed h₁ fun _ h₂ => Act.next_formed (Ctx.putLanes_formed h₂)
  case nop | bra | bkpt =>
    exact issued_formed hs fun _ h₁ => Ctx.gate_formed h₁ fun _ h₂ => h₂
  case mode | pmode | yield | idem | idemx =>
    exact issued_formed hs fun _ h₁ => Ctx.gate_formed h₁ fun _ h₂ => Act.next_formed (Ctx.with_formed h₂)
  case loop | loopi =>
    exact issued_formed hs fun _ h => startLoop_formed h
  case bcc | jmpr =>
    exact issued_formed hs fun _ h₁ => Ctx.gate_formed h₁ fun _ h₂ => Act.ite_formed h₂ h₂
  case bmz | bmnz =>
    exact issued_formed hs fun _ h => maskBranch_formed h
  case ldp | lds | ldt | ldd | lddw | ldh =>
    exact issued_formed hs fun _ h => Ctx.loadOp_formed h
  case stp | sts | stt | std | stdw | sth | stx =>
    exact issued_formed hs fun _ h => Ctx.storeOp_formed h
  case atd | ath =>
    exact issued_formed hs fun _ h => Ctx.scopedAtomic_formed h
  case frame | unframe =>
    exact issued_formed hs fun _ h => frameOp_formed h
  case bwait | await =>
    exact issued_formed hs fun _ h₁ => Ctx.cellOp_formed h₁ fun _ _ h₂ => Ctx.waitCell_formed h₂
  case xwait | xwaitPoll =>
    exact commanded_formed hs fun _ _ h => xwaitOnce_formed h
  case time | pmrd =>
    exact issued_formed hs fun _ h₁ => Ctx.gate_formed h₁ fun _ h₂ => Act.next_formed (Ctx.setSpec64_formed h₂)
  case vfEnable | vfDisable | tear =>
    exact outFormed_next (State.ite_formed (State.orSame_formed hs (State.writeVf_formed hs)) hs)
  case keyRenewal | throttle =>
    exact outFormed_next (State.with_formed hs)
  case getVersion | getCapabilities | getDigests | getCertificate =>
    exact outFormed_next (State.mailbox_formed hs fun _ h => State.respond_formed h)
  case keyExchange | finish | endSession =>
    exact outFormed_next (State.mailbox_formed hs fun _ h => State.ite_formed (State.respond_formed h)
      (State.respond_formed (State.with_formed h)))
  case extend | installDumpKey | clearDumpKey =>
    exact outFormed_next (State.mailbox_formed hs fun _ h => State.vendor_formed h)
  case waitv | waitvPoll =>
    exact issued_formed hs fun _ h => Ctx.waitv_formed h
  case mmx | gmmx =>
    exact issued_formed hs fun _ h => matrixOp_formed h
  case lbrk => exact execLbrk_formed hs
  case split => exact execSplit_formed hs
  case join => exact execJoin_formed hs
  case call => exact execCall_formed hs
  case ret => exact execRet_formed hs
  case exit => exact execExit_formed hs
  case cqput => exact execCqput_formed hs
  case cqget => exact execCqget_formed hs
  case meet => exact execMeet_formed hs
  case trap => exact execTrap_formed hs
  case tidx => exact execTidx_formed hs
  case unpk => exact execUnpk_formed hs
  case wrlane => exact execWrlane_formed hs
  case sysw => exact execSysw_formed hs
  case tarm => exact execTarm_formed hs
  case twait => exact execTwait_formed hs
  case grow => exact execGrow_formed hs
  case shrink => exact execShrink_formed hs
  case tret => exact execTret_formed hs
  case mark => exact execMark_formed hs
  case succ => exact execSucc_formed hs
  case cstat => exact execCstat_formed hs
  case ats => exact execAts_formed hs
  case sldd => exact execSldd_formed hs
  case sstd => exact execSstd_formed hs
  case pfd => exact execPfd_formed hs
  case ldx => exact execLdx_formed hs
  case atx => exact execAtx_formed hs
  case cmt => exact execCmt_formed hs
  case abt => exact execAbt_formed hs
  case acq => exact execAcq_formed hs
  case sync => exact execSync_formed hs
  case binit => exact execBinit_formed hs
  case barv => exact execBarv_formed hs
  case barw => exact execBarw_formed hs
  case brema => exact execBrema_formed hs
  case aexp => exact execAexp_formed hs
  case arel => exact execArel_formed hs
  case acpy => exact execAcpy_formed hs
  case cwait => exact execCwait_formed hs
  case cpoll => exact execCpoll_formed hs
  case cpollE => exact execCpollE_formed hs
  case sstart => exact execSstart_formed hs
  case sstop => exact execSstop_formed hs
  case sstat => exact execSstat_formed hs
  case cpack => exact execCpack_formed hs
  case crd => exact execCrd_formed hs
  case cwr => exact execCwr_formed hs
  case czero => exact execCzero_formed hs
  case thal => exact execThal_formed hs
  case thfree => exact execThfree_formed hs
  case shld => exact execShld_formed hs
  case recv => exact execRecv_formed hs
  case msend => exact execMsend_formed hs
  case spawn => exact execSpawn_formed hs
  case xloop => exact execXloop_formed hs
  case xstride => exact execXstride_formed hs
  case xfer => exact execXfer_formed hs
  case xgather => exact execXgather_formed hs
  case xarrive => exact execXarrive_formed hs
  case xslot => exact execXslot_formed hs
  case xjump => exact execXjump_formed hs
  case xhalt => exact execXhalt_formed hs
  case xfence => exact execXfence_formed hs
  case xscale => exact execXscale_formed hs
  case xflag => exact execXflag_formed hs
  case loadReturn => exact execLoadReturn_formed hs
  case settleWindowExpiry => exact execSettleWindowExpiry_formed hs
  case translationFill => exact execTranslationFill_formed hs
  case tlbInvalidation => exact execTlbInvalidation_formed hs
  case growGrant => exact execGrowGrant_formed hs
  case copyComplete => exact execCopyComplete_formed hs
  case hostWake => exact execHostWake_formed hs
  case packetAccept => exact execPacketAccept_formed hs
  case blockPlace => exact execBlockPlace_formed hs
  case spinPreemption => exact execSpinPreemption_formed hs
  case rotationRound => exact execRotationRound_formed hs
  case slotGrant => exact execSlotGrant_formed hs
  case sliceEnd => exact execSliceEnd_formed hs
  case preemption => exact execPreemption_formed hs
  case resume => exact execResume_formed hs
  case debuggerStop => exact execDebuggerStop_formed hs
  case singleStep => exact execSingleStep_formed hs
  case migrationExport => exact execMigrationExport_formed hs
  case migrationImport => exact execMigrationImport_formed hs
  case timerFire => exact execTimerFire_formed hs
  case messageArrival => exact execMessageArrival_formed hs
  case messageDeliverable => exact execMessageDeliverable_formed hs
  case patienceLow => exact execPatienceLow_formed hs
  case deferReceive => exact execDeferReceive_formed hs
  case strikeReport => exact execStrikeReport_formed hs
  case uncoreStrike => exact execUncoreStrike_formed hs
  case replayCheck => exact execReplayCheck_formed hs
  case screenCompare => exact execScreenCompare_formed hs
  case eccError => exact execEccError_formed hs
  case correctedSummary => exact execCorrectedSummary_formed hs
  case traceSample => exact execTraceSample_formed hs
  case lcFlush => exact execLcFlush_formed hs
  case selfTestStart => exact execSelfTestStart_formed hs
  case selfTestRun => exact execSelfTestRun_formed hs
  case dumpStart => exact execDumpStart_formed hs
  case hinv => exact execHinv_formed hs
  case vfsel => exact execVfsel_formed hs
  case teardownComplete => exact execTeardownComplete_formed hs
  case counterClaim => exact execCounterClaim_formed hs
  case hypervisorClaim => exact execHypervisorClaim_formed hs
  case crst => exact execCrst_formed hs
  case msggo => exact execMsggo_formed hs
  case registerWrite => exact execRegisterWrite_formed hs
  case peerRequest => exact execPeerRequest_formed hs
  case peerReply => exact execPeerReply_formed hs
  case reservationLapse => exact execReservationLapse_formed hs
  case flitReceive => exact execFlitReceive_formed hs
  case moduleReset => exact execModuleReset_formed hs
  case recoveryProgram => exact execRecoveryProgram_formed hs
  case recoveryProgramDone => exact execRecoveryProgramDone_formed hs
  case recoveryReset => exact execRecoveryReset_formed hs
  case negotiateAlgorithms => exact execNegotiateAlgorithms_formed hs
  case getMeasurements => exact execGetMeasurements_formed hs
  case svminRaise => exact execSvminRaise_formed hs
  case thermalTrip => exact execThermalTrip_formed hs
  case unassignedOpcode => exact execUnassignedOpcode_formed hs
  case fetchFault => exact execFetchFault_formed hs
  case unassignedCommandCode => exact execUnassignedCommandCode_formed hs
  case faultBufferRetry => exact execFaultBufferRetry_formed hs
  case hostEndsLaunch => exact execHostEndsLaunch_formed hs
  case screenAbandon => exact execScreenAbandon_formed hs
  case hostCoherenceInvalidation => exact execHostCoherenceInvalidation_formed hs
  case eviction => exact execEviction_formed hs

/-! Issue (Issue.lean). -/

theorem State.keepWord_formed {w} (hs : s.Formed) : (s.keepWord c w).Formed :=
  ite_formed hs (updWave_formed hs)

theorem Ctx.after_formed {i w} (hs : s.Formed) : (c.after i w s).Formed :=
  State.keepSnapshot_formed (State.keepWord_formed (State.account_formed (State.with_formed hs)))

theorem onNext_formed {f o} (ho : OutFormed o) (hf : ∀ s, s.Formed → (f s).Formed) :
    OutFormed (onNext f o) := by
  cases o with
  | next s => exact hf s ho
  | fault r => exact ho
  | refused r => exact ho

theorem Ctx.perform_formed {i w} (hc : c.Formed) : OutFormed (c.perform i w) := by
  unfold Ctx.perform
  refine outFormed_ite (outFormed_next ?_) (onNext_formed (exec_formed ?_) fun _ h => after_formed h)
  · split
    · exact State.abandonScreen_formed (s_formed hc)
    · exact s_formed hc
  · dsimp only
    exact State.with_formed (s_formed hc)

theorem Ctx.takePending_formed {t k} (hc : c.Formed) (hk : k.Formed) :
    (c.takePending t k).Formed :=
  State.ite_formed (out_formed (with_formed hc)) (takeTrap_formed (with_formed hk))

theorem State.issuing_formed {r} (hs : s.Formed) : OptCtxFormed (s.issuing r) := by
  unfold State.issuing
  cases e : Ctx.of? s r with
  | none => exact optCtxFormed_none
  | some c =>
    have hc : c.Formed := (formed_of_eq (Ctx.of?_formed hs) e :)
    exact optCtxFormed_ite (optCtxFormed_some hc) optCtxFormed_none

theorem Ctx.pending_formed {t c'} (hc : c.Formed) (e : c.pending = some (t, c')) : c'.Formed := by
  unfold Ctx.pending at e
  split at e
  · cases e
  · split at e
    · cases e
      exact Ctx.with_formed hc
    · split at e
      · cases e
        exact Ctx.with_formed hc
      · cases e

theorem Ctx.go_formed (hc : c.Formed) : OutFormed c.go := by
  simp only [Ctx.go]
  split
  · next e => exact outFormed_next (State.keepSnapshot_formed (Ctx.takePending_formed hc (Ctx.pending_formed hc e)))
  · split
    · exact Ctx.perform_formed hc
    · generalize hk : (if c.f.hold.isSome then c else _) = k
      have h₁ : k.Formed := hk ▸ Ctx.ite_formed hc (Ctx.mk_formed (State.fillTlb_formed (Ctx.s_formed hc)))
      split
      · exact Ctx.perform_formed h₁
      · exact onNext_formed (badOperand_formed (State.with_formed (Ctx.s_formed h₁)))
          fun s hs => Ctx.after_formed hs

theorem State.issue_formed {r} (hs : s.Formed) : OutFormed (s.issue r) := by
  unfold State.issue
  split
  · exact hs
  · next e =>
    exact onNext_formed (Ctx.go_formed (formed_of_eq (State.issuing_formed hs) e :)) fun t ht => State.tick_formed ht

theorem State.commandBytes_formed {x} (hs : s.Formed) : CmdExcFormed (s.commandBytes x) := by
  unfold State.commandBytes
  refine cmdExcFormed_ite (cmdExcFormed_error (CmdAct.fault_formed hs)) ?_
  split
  · exact cmdExcFormed_error (engineMiss_formed hs)
  · exact cmdExcFormed_error (CmdAct.fault_formed hs)
  · exact cmdExcFormed_ok

theorem XCtx.go_formed {x} (hs : s.Formed) : OutFormed (XCtx.go x s) := by
  simp only [XCtx.go]
  split
  · next e =>
    exact State.with_formed (CmdAct.state_formed (formed_of_eq (State.commandBytes_formed hs) e :))
  · exact onNext_formed (exec_formed (State.with_formed hs))
      fun t ht => State.with_formed ht

theorem State.command_formed {e k} (hs : s.Formed) : OutFormed (s.command e k) := by
  unfold State.command
  split
  · exact outFormed_next hs
  · exact onNext_formed (XCtx.go_formed hs) fun _ h => tick_formed h

theorem State.commandAll_formed {cs} (hs : s.Formed) : OutFormed (s.commandAll cs) := by
  induction cs generalizing s with
  | nil => exact hs
  | cons p cs ih =>
    unfold State.commandAll
    split
    · exact ih hs
    · next x _ =>
      have hg : OutFormed (x.go s) := XCtx.go_formed hs
      split
      · next e => exact ih (formed_of_eq hg e :)
      · exact hg

theorem State.oneCycle_formed {cs iss rs} (hs : s.Formed) : OutFormed (s.oneCycle cs iss rs) := by
  induction rs generalizing s iss with
  | nil => exact onNext_formed (State.commandAll_formed hs) fun t ht => State.tick_formed ht
  | cons r rs ih =>
    unfold State.oneCycle
    split
    · exact ih hs
    · next c e =>
      have hg : OutFormed c.go := Ctx.go_formed (formed_of_eq (State.issuing_formed hs) e :)
      split
      · next e => exact ih (formed_of_eq hg e :)
      · exact hg

/-! Policy (Policy.lean). -/

theorem State.notReady_formed {rs} (hs : s.Formed) : (s.notReady rs).Formed :=
  foldl_formed hs fun _ _ h => updWave_formed h

theorem State.goOn_formed (hs : s.Formed) : s.goOn.1.Formed :=
  fst_formed (notReady_formed hs)

theorem State.default_formed (hs : s.Formed) : s.default.1.Formed := by
  unfold State.default
  split
  · exact hs
  · exact goOn_formed hs

theorem State.keepLines_formed {w load} (hs : s.Formed) : (s.keepLines w load).Formed := by
  unfold State.keepLines
  split
  · exact hs
  · dsimp only
    exact foldl_formed hs fun _ _ h => takeLine_formed h

theorem State.post_formed {r} (hs : s.Formed) : (s.post r).Formed := by
  unfold State.post
  split
  · exact hs
  · exact updWave_formed hs

theorem State.perform_formed {act} (hs : s.Formed) : OutFormed (s.perform act) := by
  unfold State.perform
  refine outFormed_ite (outFormed_next hs) ?_
  split
  · exact issue_formed hs
  · exact command_formed hs
  · exact onNext_formed (exec_formed (with_formed hs)) fun _ h => foldl_formed h fun _ _ h₁ => keepSnapshot_formed h₁
  · exact outFormed_next (tick_formed hs)
  · exact oneCycle_formed hs
  · exact outFormed_next (drainOne_formed hs)
  · exact outFormed_next (post_formed hs)
  · exact outFormed_next (sendEgress_formed hs)
  · exact outFormed_next (keepLines_formed hs)
  · exact outFormed_next (updXctx_formed hs)
  · exact outFormed_next (loadFirmware_formed hs)
  · exact outFormed_next (sendSlots_formed hs)
  · exact outFormed_next (ite_formed (hostStore_formed hs) (ite_formed hs (devWrite_formed hs)))
  · exact outFormed_next (with_formed hs)
  · exact outFormed_next (vendorFinish_formed hs)
  · exact outFormed_next (countSymbols_formed hs)
  · exact outFormed_next (ite_formed hs (with_formed hs))

theorem State.nextAction_formed (hs : s.Formed) : s.nextAction.1.Formed := by
  unfold State.nextAction
  split
  · exact fst_formed (with_formed hs)
  · exact default_formed hs

/-! One step (Step.lean). -/

theorem step_formed (hs : s.Formed) : OutFormed (step s) :=
  outFormed_ite outFormed_fault (State.perform_formed (State.nextAction_formed hs))

end

/-- Settles O58: the invariant of `step_formed`, read by `State.formed_iff_memWf`. -/
theorem memoryFormKept : Obligations.MemoryFormKept := by
  unfold Obligations.MemoryFormKept
  intro s t hs ht
  have h : OutFormed (step s) := step_formed (State.formed_iff_memWf.2 hs)
  rw [ht] at h
  exact State.formed_iff_memWf.1 h

/-- Settles O59, by evaluation. -/
theorem resetState : Obligations.ResetState :=
  ⟨rfl, rfl, rfl, rfl, rfl, rfl, rfl, rfl, rfl, rfl, rfl, rfl, rfl, rfl, fun _ => ⟨rfl, rfl⟩, fun _ => rfl, rfl, rfl⟩

end Sys2Proof.Machine
end

section
/-!
PROOFS. The statement on what waits bring at their end fails where it has a block's scratchpad empty once the block is gone.
At the end of a launch `State.completeLaunch` first writes out the line copies that serve the launch (R216, R416), wherever
their lines lie. The statement asks of the provisional sectors of the launch that they lie in device memory, and nothing of
its line copies: one of a line of the block's scratchpad is written back into the allocation that the block has just given
up. The instructions take copies of device and host lines alone; what the statement lacks is that premise about the copies,
beside the one about the sectors.
-/

namespace Sys2Proof.Machine

/-- A cluster's copy of the first sector of block 0's scratchpad, for the accesses of launch 0, whose first byte a strong
access has written. -/
def scratchLine : LineCopy :=
  { core := none, cluster := some 0, key := { place := .scr 0, idx := 0 }, launch := some 0, bytes := [1], written := 1 }

/-- The only wave of the only block of a launch, whose stream ended 128 cycles ago, beside that copy. -/
def lastWaveEnded : State :=
  { cycle := 128
    waves := [{ block := 0, idx := 0, live := 1, exitedAt := some 0, a := none, c := { frags := [], regs := {}, ended := true }
                vcount := 32, vmin := 32, vmax := 128, lq := [], sq := [], tokens := [] }]
    blocks := [{ launch := 0, index := 0, phase := .resident, waves := [0], scrSize := 32 }]
    launches := [{ fn := Config.physFn, asid := 0, queue := 0, packet := {}, priv := 2 }]
    lines := [scratchLine] }

/-- The launch of the wave completes, and the byte of the copy stands in the scratchpad of its retired block. -/
theorem settleWave_lastWaveEnded :
    ((lastWaveEnded.settleWave 0).launch 0).phase = .complete ∧ ((lastWaveEnded.settleWave 0).block 0).phase = .retired ∧
      ((lastWaveEnded.settleWave 0).block 0).scr = [(0, 1)] := by
  decide +kernel

/-- Refutes O45: a block's last wave retires in `lastWaveEnded`, whose launch has no provisional sector, and the block's
scratchpad is not empty afterwards (`settleWave_lastWaveEnded`). -/
theorem not_waitsEnd : ¬ Obligations.WaitsEnd := by
  unfold Obligations.WaitsEnd
  rintro ⟨-, waveRetires, -, -⟩
  obtain ⟨-, retires⟩ := waveRetires lastWaveEnded 0 0 (by decide) (by decide) (by decide) rfl rfl rfl rfl rfl rfl rfl
    (by decide)
  obtain ⟨-, blockGoes⟩ := retires (by decide) (by decide +kernel)
  have noProvisional : (lastWaveEnded.launch (lastWaveEnded.launchOf 0)).prov = [] := rfl
  obtain ⟨t, ht, -, -, -, scrEmpty, -⟩ := blockGoes (by decide +kernel) (by simp [noProvisional])
  obtain rfl : lastWaveEnded.settleWave 0 = t := Host.Outcome.next.inj ht
  obtain ⟨-, -, byteStands⟩ := settleWave_lastWaveEnded
  exact absurd (byteStands.symm.trans scrEmpty) (by decide)

end Sys2Proof.Machine
end

section
/-!
PROOFS. Instructions that compute a result for each lane, or once for a uniform destination (R104, R129): each acts as the
lane operation that its form states, and a lane operation whose checks pass completes with its results.
-/

namespace Sys2Proof.Machine

open Sys2Proof.Claims

/-- Executing the instruction of a form is running the lane operation of the form in the issuing context. -/
def ActsAs (s : State) (c : Ctx) (f : LaneForm) : Prop := exec f.i s = .next (f.op.run c).state

theorem lanesComplete_of_actsAs {s : State} {c : Ctx} {fs : List LaneForm} (acts : ∀ f ∈ fs, ActsAs s c f) :
    LanesComplete s c fs := by
  intro f hf c1 vals c2 runs
  have run : f.op.run c = .next c2 (f.op.la.bind fun k => c.window k f.op.protect) :=
    LaneOp.run_eq runs.passes runs.sources runs.written
  rw [acts f hf, run]
  rfl

section
variable {s : State} {c : Ctx} {d a b : Spec}

theorem roundForm_actsAs (h : s.Issues c) {i : Instr} {srcs : List Spec} {readsD : Bool} {la : Option (BitVec 4)}
    {g : Rm → (Nat → XReal) → XReal} (arm : exec i s = issued s (roundOp d srcs readsD la g)) :
    ActsAs s c (roundForm c i d srcs readsD la g) :=
  arm.trans (issued_eq h _)

/-- `floatOp` leaves the check of RM out where the instruction does not read RM. -/
theorem plainForm_actsAs (h : s.Issues c) {i : Instr} {srcs : List Spec} {ok : List Nat} {la : Option (BitVec 4)}
    {g : Bool → Fmt → List Nat → Nat}
    (arm : exec i s = issued s (floatOp d srcs false false ok la fun c f es => g c.ftz f es)) :
    ActsAs s c (plainForm c i d srcs ok la g) := by
  have noRm : (badEt c.et ok || (false && badRm c.mode)) = badEt c.et ok := Bool.or_false _
  refine arm.trans ((issued_eq h _).trans ?_)
  simp only [floatOp, noRm]
  rfl

/-! The forms of each list. Where `issued_eq` alone is cited, the body of the instruction in the context `c` is the form's
operation by definition. -/

theorem bitForms_actAs (h : s.Issues c) : ∀ f ∈ bitForms c d a b, ActsAs s c f := by
  simp only [bitForms, List.forall_mem_cons, List.not_mem_nil, false_implies, implies_true, and_true]
  and_intros
  all_goals exact issued_eq h _

theorem moveForms_actAs {i : BitVec 16} (h : s.Issues c) : ∀ f ∈ moveForms c d a b i, ActsAs s c f := by
  simp only [moveForms, List.forall_mem_cons, List.not_mem_nil, false_implies, implies_true, and_true]
  and_intros
  all_goals exact issued_eq h _

/-- Nine instructions round under RM, ten do not read it, and FCLS classifies. -/
theorem floatForms_actAs {la : BitVec 4} (h : s.Issues c) : ∀ f ∈ floatForms c d a b la, ActsAs s c f := by
  simp only [floatForms, List.forall_mem_cons, List.not_mem_nil, false_implies, implies_true, and_true]
  and_intros
  iterate 9 exact roundForm_actsAs h rfl
  iterate 10 exact plainForm_actsAs h rfl
  exact issued_eq h _

theorem packForms_actAs {e : BitVec 3} {k : BitVec 5} {la : BitVec 4} (h : s.Issues c) :
    ∀ f ∈ packForms c d a b e k la, ActsAs s c f := by
  simp only [packForms, List.forall_mem_cons, List.not_mem_nil, false_implies, implies_true, and_true]
  and_intros
  all_goals exact issued_eq h _

theorem shuffleForms_actAs {q : BitVec 2} (h : s.Issues c) : ∀ f ∈ shuffleForms c d a b q, ActsAs s c f := by
  simp only [shuffleForms, List.forall_mem_cons, List.not_mem_nil, false_implies, implies_true, and_true]
  and_intros
  all_goals exact issued_eq h _

end

/-- Settles O2: each of the forms acts as its lane operation. -/
theorem bitsAndMoves : Obligations.BitsAndMoves := by
  unfold Obligations.BitsAndMoves
  intro s c d a b i h
  exact lanesComplete_of_actsAs (List.forall_mem_append.2 ⟨bitForms_actAs h, moveForms_actAs h⟩)

/-- Settles O3: each of the forms acts as its lane operation. -/
theorem floatingPoint : Obligations.FloatingPoint := by
  unfold Obligations.FloatingPoint
  intro s c d a b la h
  exact lanesComplete_of_actsAs (floatForms_actAs h)

/-- Settles O4: each of the forms acts as its lane operation. -/
theorem conversionsAndShuffles : Obligations.ConversionsAndShuffles := by
  unfold Obligations.ConversionsAndShuffles
  intro s c d a b e k la q h
  exact lanesComplete_of_actsAs (List.forall_mem_append.2 ⟨packForms_actAs h, shuffleForms_actAs h⟩)

end Sys2Proof.Machine
end

section
/-!
PROOFS. Instructions that check, read sources and act otherwise than by one result for each lane (compares, TIDX, UNPK), the
single lanes and the votes, and what the conditions of a compare mean (R141, R142, R146, R150, R152, R153).
-/

namespace Sys2Proof.Machine

open Sys2Proof.Claims

/-- The shape of an instruction that reads sources: its checks in the order of R119, then its sources, then its effect. -/
def Ctx.reading (c : Ctx) (n : Need) (srcs : List Src) (act : Ctx → Ctx → List (Nat → Dword) → Act) : Act :=
  c.gate n fun c0 =>
    match c0.readAll srcs with
    | .stall => .park c0 .queue
    | .trap t => .trap c0 t
    | .marked c1 k => .consume c1 k
    | .ok c1 vals => act c0 c1 vals

theorem Ctx.reading_eq {c c1 : Ctx} {n : Need} {srcs : List Src} {vals : List (Nat → Dword)} (passes : c.Passes n)
    (sources : c.readAll srcs = .ok c1 vals) (act : Ctx → Ctx → List (Nat → Dword) → Act) :
    c.reading n srcs act = act c c1 vals := by
  simp only [Ctx.reading, Ctx.gate_eq passes, sources]

/-- The instruction of a reading form has that shape, and its effect completes in sequence. -/
def ReadsAs (s : State) (c : Ctx) (f : ReadForm) : Prop :=
  exec f.i s = .next (c.reading f.need f.srcs fun _ c1 vals => .next (f.out c1 vals) none).state

theorem readsComplete_of_readsAs {s : State} {c : Ctx} {fs : List ReadForm} (reads : ∀ f ∈ fs, ReadsAs s c f) :
    ReadsComplete s c fs := by
  intro f hf passes c1 vals sources
  rw [reads f hf, Ctx.reading_eq passes sources]
  rfl

/-- The instruction of a form checks, and its effect, which reads no queue, completes in sequence. -/
def GatesAs (s : State) (c : Ctx) (f : Form) : Prop :=
  ∃ body, exec f.i s = .next (c.gate f.need body).state ∧ body c = .next f.out f.win

theorem completes_of_gatesAs {s : State} {c : Ctx} {fs : List Form} (gates : ∀ f ∈ fs, GatesAs s c f) :
    Completes s c fs := by
  intro f hf passes
  obtain ⟨body, arm, effect⟩ := gates f hf
  rw [arm, Ctx.gate_eq passes, effect]
  rfl

/-! Compares (R141, R142). -/

theorem compareForm_readsAs {s : State} {c : Ctx} {i : Instr} {illegal : Bool} {ok : List Nat} {p : Nat} {a b : Spec}
    {holds : Nat → Dword → Dword → Bool} (arm : exec i s = .next (c.compare illegal ok p a b holds).state) :
    ReadsAs s c (compareForm c i illegal ok p a b (holds c.et)) := by
  have shape : c.compare illegal ok p a b holds = c.reading (compareForm c i illegal ok p a b (holds c.et)).need
      (compareForm c i illegal ok p a b (holds c.et)).srcs
      fun _ c1 vals => .next ((compareForm c i illegal ok p a b (holds c.et)).out c1 vals) none := by
    cases uniform : isUniform a && isUniform b <;> simp only [Ctx.compare, compareForm, uniform] <;> rfl
  rw [ReadsAs, ← shape]
  exact arm

theorem icmpHolds_iff (x y : Int) :
    (icmpHolds 0 (compare x y) = true ↔ x = y) ∧ (icmpHolds 1 (compare x y) = true ↔ x ≠ y) ∧
    (icmpHolds 2 (compare x y) = true ↔ x < y) ∧ (icmpHolds 3 (compare x y) = true ↔ x ≤ y) ∧
    (icmpHolds 4 (compare x y) = true ↔ y < x) ∧ (icmpHolds 5 (compare x y) = true ↔ y ≤ x) := by
  simp only [icmpHolds, beq_iff_eq, bne_iff_ne, ne_eq, Int.compare_eq_eq, Int.compare_eq_lt, Int.compare_eq_gt,
    Int.not_lt, and_self, iff_self]

theorem fcmpHolds_none : (∀ k ∈ [0, 2, 3, 4, 5], fcmpHolds k none = false) ∧
    ∀ k ∈ [1, 8, 9, 10, 11, 12], fcmpHolds k none = true := by decide

theorem fcmpHolds_some (o : Ordering) :
    (∀ k ∈ [0, 8], fcmpHolds k (some o) = (o == .eq)) ∧ (fcmpHolds 1 (some o) = (o != .eq)) ∧
    (∀ k ∈ [2, 9], fcmpHolds k (some o) = (o == .lt)) ∧ (∀ k ∈ [3, 10], fcmpHolds k (some o) = (o != .gt)) ∧
    (∀ k ∈ [4, 11], fcmpHolds k (some o) = (o == .gt)) ∧ (∀ k ∈ [5, 12], fcmpHolds k (some o) = (o != .lt)) := by
  cases o <;> decide

/-- Settles O7: both compares have the shape of a reading form, and their values are conditions on an ordering. -/
theorem compares : Obligations.Compares := by
  unfold Obligations.Compares
  refine ⟨fun s c k p a b h => readsComplete_of_readsAs ?_, fun et a b => icmpHolds_iff _ _, fun et ftz a b => ?_⟩
  · simp only [List.forall_mem_cons, List.not_mem_nil, false_implies, implies_true, and_true]
    exact ⟨compareForm_readsAs (holds := fun et => icmpValue et k.toNat) (issued_eq h _),
      compareForm_readsAs (holds := fun et => fcmpValue et k.toNat c.ftz) (issued_eq h _)⟩
  · intro f x y
    have ordering : ∀ k, fcmpValue et k ftz a b = fcmpHolds k (XReal.cmp x y) := fun _ => rfl
    simp only [ordering]
    refine ⟨Option.isNone_iff_eq_none.symm, Option.isSome_iff_ne_none.symm, fun unordered => ?_, fun o ordered => ?_⟩
    · simpa only [unordered] using fcmpHolds_none
    · simpa only [ordered] using fcmpHolds_some o

/-- Settles O8: TIDX, once no load of its shape entry is pending, and UNPK have the shape of a reading form; the others check
and act. -/
theorem lanesAndVotes : Obligations.LanesAndVotes := by
  unfold Obligations.LanesAndVotes
  intro s c d a b p n h
  refine ⟨fun ready => readsComplete_of_readsAs ?_, readsComplete_of_readsAs ?_, completes_of_gatesAs ?_⟩
  all_goals simp only [List.forall_mem_cons, List.not_mem_nil, false_implies, implies_true, and_true]
  · have notPending : ¬ c.shapePending n.toNat = true := by simp [ready]
    exact (issued_eq h _).trans (congrArg (fun act : Act => Host.Outcome.next act.state) (if_neg notPending))
  · exact issued_eq h _
  · and_intros
    all_goals exact ⟨_, issued_eq h _, rfl⟩

end Sys2Proof.Machine
end

section
/-!
PROOFS. Peer loads and atomics once every lane has its answer (R258 to R260), prefetches (R254), and SHLD (R145).
-/

namespace Sys2Proof.Machine

open Sys2Proof.Claims

/-! The words of a datum (R243). -/

theorem ofNat_wrapInt_intOf {w x : Nat} (narrow : w ≤ 32) (sg : Bool) :
    BitVec.ofNat 32 (wrapInt 32 (intOf sg w x)) =
      if sg = true ∧ 2 ^ (w - 1) ≤ x then BitVec.ofNat 32 (x + 2 ^ 32 - 2 ^ w) else BitVec.ofNat 32 x := by
  have bound : 2 ^ w ≤ 2 ^ 32 := Nat.pow_le_pow_right (by decide) narrow
  apply BitVec.eq_of_toNat_eq
  simp only [wrapInt, intOf, Bool.and_eq_true, decide_eq_true_eq]
  split
  · generalize hp : 2 ^ w = p at *
    have hp' : (2 : Int) ^ w = p := by exact_mod_cast hp
    simp only [BitVec.toNat_ofNat, hp']
    omega
  · simp only [BitVec.toNat_ofNat]
    omega

theorem extendWords_getD (z : Nat) (sg : Bool) (bs : List Byte) (i : Nat) :
    (extendWords z sg bs).getD i 0 = loadWord z sg bs i := by
  by_cases narrow : z < 4
  · cases i with
    | zero => simpa [extendWords, loadWord, narrow] using ofNat_wrapInt_intOf (x := natOfBytes bs) (by omega) sg
    | succ i => simp [extendWords, loadWord, narrow]
  · by_cases inside : i < z / 4 <;> simp [extendWords, loadWord, narrow, inside]

/-- Looking up a lane among the words of each, or among functions that give its words, is the same. -/
theorem find?_mapIdx_getD (words : Nat → LaneAddr → List Word) (ys : List LaneAddr) (l i : Nat) :
    ((ys.mapIdx fun k y => (y.lane, words k y)).find? (·.1 == l)).map (fun x => x.2.getD i 0) =
      ((ys.mapIdx fun k y => (y.lane, fun j => (words k y).getD j 0)).find? (·.1 == l)).map (fun x => x.2 i) := by
  have asMap : (ys.mapIdx fun k y => (y.lane, fun j => (words k y).getD j 0)) =
      (ys.mapIdx fun k y => (y.lane, words k y)).map fun x => (x.1, fun j => x.2.getD j 0) := by
    simp only [List.mapIdx_eq_zipIdx_map, List.map_map, Function.comp_def]
  rw [asMap, List.find?_map, Option.map_map]
  rfl

/-! The lanes of an access that all pass their checks. -/

theorem firstOut_map_ok (xs : List LaneAddr) : firstOut (xs.map LaneOut.ok) = xs.head?.map LaneOut.ok := by
  induction xs with
  | nil => rfl
  | cons x t ih => cases t <;> simp_all [firstOut, LaneOut.order]

theorem State.loadMark_eq_none {s : State} {w : Nat} {before : Option Nat} {p : Place} {a n : Nat}
    (clean : (s.loadBytes w before p a n).2 = false) : s.loadMark w before p a n = none := by
  simpa [State.loadMark, State.loadBytes] using clean

/-! A peer load whose replays have all been answered (R258 to R260). -/

section
variable {c : Ctx} {q : LaneAcc} {h : Hold} {xs : List LaneAddr} {t : State} {reqs : List Nat}
  (held : c.f.hold = some h) (passed : c.rescan q h = .ok xs)
  (answered : replay c (fun _ => .load q.size) (replayOrder xs) c.s h.reqs 40 = .done t reqs)
include held passed answered

theorem Ctx.peerLoad_uncorrectable {k : SecKey}
    (bad : peerBad t (replayOrder xs) reqs (fun y => (List.range q.size).all fun j =>
      (t.bufferByte c.r.wave h.seq y.place (y.addr + j)).isSome) = some k)
    (register : (c.inA && isQueue q.x) = false) :
    c.peerLoad q = .consume { c with s := t } (some k) := by
  have traps : ({ c with s := t } : Ctx).poisons q = false := register
  simp only [Ctx.peerLoad, held, passed, answered, bad, traps, Bool.false_eq_true, if_false]

theorem Ctx.peerLoad_delivers
    (good : peerBad t (replayOrder xs) reqs (fun y => (List.range q.size).all fun j =>
      (t.bufferByte c.r.wave h.seq y.place (y.addr + j)).isSome) = none) :
    let bytes := fun (i : Nat) (y : LaneAddr) => (List.range q.size).map fun j =>
      (t.bufferByte c.r.wave h.seq y.place (y.addr + j)).getD ((t.peerData (reqs.getD i 0)).getD j 0)
    let vals := (replayOrder xs).mapIdx fun i y =>
      (y.lane, fun j => loadWord q.size (c.et == 1 || c.et == 3) (bytes i y) j)
    c.peerLoad q = .next ((({ c with s := t } : Ctx).deliver q h.handles fun i l =>
      ((vals.find? (·.1 == l)).map fun y => y.2 i).getD 0).externalIf (!xs.isEmpty)) (c.window q.la q.protect) := by
  simp only [Ctx.peerLoad, held, passed, answered, good, ← extendWords_getD, ← find?_mapIdx_getD]
  rfl

end

/-- An atomic on a peer's memory whose replays have all been answered gives each lane what its node answered. -/
theorem execAtx_answered {s : State} {c : Ctx} {x a : Spec} {la o : BitVec 4} {h : Hold} {xs : List LaneAddr} {t : State}
    {reqs : List Nat} (issues : s.Issues c) (settled : c.Settled h) :
    let q := atomicAcc c x a la o.toNat .peer
    c.rescan q h = .ok xs →
    let ys := replayOrder xs
    let ask := fun (y : LaneAddr) =>
      PeerAsk.atomic o (BitVec.ofNat 4 c.et) (c.atomicOps q y.lane).1 (c.atomicOps q y.lane).2
    replay c ask ys c.s h.reqs 40 = .done t reqs → peerBad t ys reqs = none →
    let old := fun (l : Nat) => ((List.range ys.length).find? fun i =>
        (ys.map (·.lane)).getD i 99 == l && (t.peerData (reqs.getD i t.peers.length)).length != 0).map fun i =>
      dwordOfBytes (t.peerData (reqs.getD i 0))
    exec (.atx x a la o) s = .next (((({ c with s := t } : Ctx).putOld q old).externalIf (!xs.isEmpty)).done
      (c.window q.la q.protect)) := by
  intro q passed ys ask answered good old
  refine (issued_eq issues _).trans ?_
  simp only [Ctx.heldOp_settled settled]
  simp only [q, ys, ask] at passed answered good
  simp only [passed, answered, good]
  rfl

/-- A prefetch that meets no destination span, as when no copy is under way, completes (R254). -/
theorem execPfd_noCopies {s : State} {c c1 : Ctx} {a : Spec} {la : BitVec 4} {k hint : BitVec 2} {av : Nat → Dword}
    (issues : s.Issues c) :
    let q : LaneAcc := { x := .v 0, a := a, size := 1, space := .dev k.toNat, regs := 1, la := la }
    let regs := specRegs a 1 ++ q.baseRegs
    c.Passes { illegal := hint == 3#2, operand := !c.srcOk false q.aSrc, guard := true, regs := regs } →
    c.readAll [q.aSrc] = .ok c1 [av] → c1.coreState.copies = [] →
    exec (.pfd a la k hint) s = .next (c1.done (c.window la regs)) := by
  intro q regs passes sources noCopies
  refine (issued_eq issues _).trans ((congrArg (fun act : Act => Host.Outcome.next act.state)
    (Ctx.reading_eq passes sources _)).trans ?_)
  have noHit : ∀ ls : List Nat, (ls.find? fun _ => false) = none := fun ls => List.find?_eq_none.2 (by simp)
  simp only [noCopies, List.any_nil, noHit]
  rfl

/-- SHLD issues a load of three sectors of sixteen bytes once each passes its checks (R145). -/
theorem execShld_issues {s : State} {c : Ctx} {a : Spec} {la n : BitVec 4} {xs : List LaneAddr} (issues : s.Issues c)
    (passes : c.Passes { operand := !c.uniRegOk a 2 2, regs := specRegs a 2 }) (aligned : (c.uval64 a).toNat % 16 = 0)
    (passed : ((List.range 3).map fun i => c.virtOut false false 16 i ((c.uval64 a).toNat + 16 * i)) =
      xs.map LaneOut.ok)
    (good : ∀ y ∈ xs, (c.s.loadBytes c.r.wave none y.place y.addr 16).2 = false) :
    let c2 := c.fillTlbs xs
    let ld : Load :=
      { id := c2.w.seq, slice := c2.r.slice, pc := c.f.pc, issued := c2.s.cycle, dest := .shape n.toNat
        size := 16, signed := false, lanes := xs, part := 0, entry := c2.r.entry, fence := c2.st.fence, eseq := c2.eseq }
    exec (.shld a la n) s = .next (({ c2 with
      w := { c2.w with loads := c2.w.loads ++ [ld], seq := c2.w.seq + 1 } } : Ctx).done
        (c.window la (specRegs a 2))) := by
  have unmarked : (xs.findSome? fun y => c.s.loadMark c.r.wave none y.place y.addr 16) = none :=
    List.findSome?_eq_none_iff.2 fun y hy => State.loadMark_eq_none (good y hy)
  intro c2 ld
  refine (issued_eq issues _).trans ((congrArg (fun act : Act => Host.Outcome.next act.state)
    (Ctx.gate_eq passes _)).trans ?_)
  simp only [aligned, passed, firstOut_map_ok, bne_self_eq_false, Bool.false_eq_true, if_false, List.filterMap_map,
    Function.comp_def, List.filterMap_some, unmarked]
  cases xs.head? <;> rfl

/-! The hypotheses of `execAtx_answered` can be met. -/

/-- A fragment of one live lane that executes an n32 addition on a peer's word, settled, with its one request made. -/
def addingFrag : Frag :=
  { pc := 0, mask := 1, ctl := { mode := 2 }
    hold := some { issued := 0, seq := 0, settled := true, regs := {}, rows := [pair 8 5], reqs := [0] } }

/-- Its wave stands alone, and node 5 has answered the addition of 7 at offset 8 with the old value. -/
def peerAnswered : State :=
  { issuer := .frag { wave := 0, slice := .c, entry := 0 }
    waves := [{ block := 0, idx := 0, live := 1, a := none, c := { frags := [some addingFrag], regs := {} }
                vcount := 32, vmin := 32, vmax := 128, lq := [], sq := [], tokens := [] }]
    peers := [{ id := 0, fn := Config.physFn, node := 5, off := 8, ask := .atomic 0 2 7 0, since := 0
                st := .answered (.data [1, 2, 3, 4]) }] }

/-- The context of the fragment there. -/
def addingCtx : Ctx :=
  { s := peerAnswered, r := { wave := 0, slice := .c, entry := 0 }, w := peerAnswered.wave 0
    st := (peerAnswered.wave 0).c, f := addingFrag }

theorem execAtx_answered_met :
    let q := atomicAcc addingCtx (.s 8) (.s 4) 0 0 .peer
    let ask := fun (y : LaneAddr) => PeerAsk.atomic 0 (BitVec.ofNat 4 addingCtx.et) (addingCtx.atomicOps q y.lane).1
      (addingCtx.atomicOps q y.lane).2
    peerAnswered.Issues addingCtx ∧ ∃ h xs t reqs, addingCtx.Settled h ∧ xs ≠ [] ∧ addingCtx.rescan q h = .ok xs ∧
      replay addingCtx ask (replayOrder xs) addingCtx.s h.reqs 40 = .done t reqs ∧
      peerBad t (replayOrder xs) reqs = none :=
  ⟨⟨rfl, rfl⟩, _, [⟨0, .peer 5, 8, 8⟩], _, _, ⟨rfl, rfl⟩, by decide, rfl, rfl, rfl⟩

/-- Settles O34, a clause by each lemma of this part. -/
theorem peerAndPrefetch : Obligations.PeerAndPrefetch := by
  unfold Obligations.PeerAndPrefetch
  intro s c c1 x a la o k z hint av issues
  refine ⟨?_, fun h xs t reqs settled => execAtx_answered issues settled, execPfd_noCopies issues,
    fun n xs passes aligned passed good => execShld_issues issues passes aligned passed good⟩
  intro h xs t reqs held q passed answered covered
  have body : exec (.ldx x a la z) s = .next (c.peerLoad q).state := issued_eq issues _
  refine ⟨fun m bad register => ?_, fun good => ?_⟩
  · rw [body, Ctx.peerLoad_uncorrectable held passed answered bad register]
    rfl
  · rw [body, Ctx.peerLoad_delivers held passed answered good]
    rfl

end Sys2Proof.Machine
end

section
/-!
PROOFS. Instructions whose effect leaves the wave, at their issue and at the end of their settle window (R207, R227, R303).
-/

namespace Sys2Proof.Machine

open Sys2Proof.Claims

@[simp] theorem Wave.seq_setStream (w : Wave) (sl : Slice) (st : Stream) : (w.setStream sl st).seq = w.seq := by
  cases sl <;> rfl

/-- The instruction checks, and then only waits for its settle window. -/
def HoldsAs (s : State) (c : Ctx) (f : Instr × Need) : Prop :=
  ∃ perform, exec f.1 s = .next (c.heldOp f.2 (fun c0 => .ok c0.newHold) perform).state

theorem heldForms_holdAs {s : State} {c : Ctx} {x a b : Spec} {la v : BitVec 4} (h : s.Issues c) :
    ∀ f ∈ heldForms c x a b la v, HoldsAs s c f := by
  simp only [heldForms, List.forall_mem_cons, List.not_mem_nil, false_implies, implies_true, and_true]
  and_intros
  all_goals exact ⟨_, issued_eq h _⟩

theorem Ctx.heldOp_newHold {c : Ctx} {n : Need} (fresh : c.f.hold = none) (passes : c.Passes n)
    (perform : Ctx → Hold → Act) : c.heldOp n (fun c0 => .ok c0.newHold) perform = .hold c c.newHold :=
  Ctx.heldOp_issue fresh passes _ perform

/-- The fragment of an instruction that has issued and is held stays at it, and only its wave has changed. -/
theorem leaves_of_hold {s : State} {c : Ctx} {i : Instr} (issues : s.Issues c)
    (held : exec i s = .next (Act.hold c c.newHold).state) : Leaves s c i fun t k =>
      k.f.hold = some { issued := c.s.cycle, seq := c.w.seq, regs := c.st.regs, eseq := c.w.eseq, fence := c.st.fence } ∧
      k.f.park = none ∧ k.f.pc = c.f.pc ∧ k.f.mask = c.f.mask ∧ k.f.ctl = c.f.ctl ∧ k.st.regs = c.st.regs ∧
      k.w.seq = c.w.seq + 1 ∧ { t with waves := s.waves } = s := by
  obtain ⟨sameState, -, inWaves, stream, inSplit⟩ := Ctx.of?_some issues.context
  have wave : c.r.wave < c.s.waves.length := sameState ▸ (List.getElem?_eq_some_iff.1 inWaves).1
  have entry : c.r.entry < c.st.frags.length := Stream.frag_lt inSplit
  refine ⟨_, _, held, Ctx.of?_out (c := { c with
    f := { c.f with hold := some { c.newHold with fence := c.st.fence }, park := none }
    w := { c.w with seq := c.w.seq + 1 } }) wave entry,
    by rw [← sameState]; rfl, ?_⟩
  refine ⟨rfl, rfl, rfl, rfl, rfl, rfl, Wave.seq_setStream _ _ _, ?_⟩
  obtain rfl := sameState
  rfl

theorem Hold.settle_iff (w : Wave) (now : Nat) (behind : Bool) (h : Hold) : (h.settle w now behind).settled = true ↔
    h.settled = true ∨ (h.issued + 128 ≤ now ∧ (∀ l ∈ w.loads, h.seq ≤ l.id) ∧ behind = false) := by
  simp only [Hold.settle, Wave.settledStore, Bool.or_eq_true, Bool.and_eq_true, decide_eq_true_eq,
    Bool.not_eq_true', List.any_eq_false, Nat.not_lt, and_assoc]
  exact Iff.rfl

/-- Settles O35: each of the forms holds once its checks have passed. -/
theorem heldIssue : Obligations.HeldIssue := by
  unfold Obligations.HeldIssue
  refine ⟨fun s c x a b la v issues fresh f hf passes => ?_, Hold.settle_iff⟩
  obtain ⟨perform, arm⟩ := heldForms_holdAs issues f hf
  rw [Ctx.heldOp_newHold fresh passes] at arm
  exact leaves_of_hold issues arm

end Sys2Proof.Machine
end

section
/-!
PROOFS. Plain stores (R206, R245, R246, R250 to R252, R257 to R259).
-/

namespace Sys2Proof.Machine

open Sys2Proof.Claims

/-! The order of a list is a list as long. -/

theorem length_insertBy {α : Type} (le : α → α → Bool) (x : α) (l : List α) :
    (insertBy le x l).length = l.length + 1 := by
  induction l with
  | nil => rfl
  | cons y t ih =>
    unfold insertBy
    split <;> simp [ih]

theorem length_sortBy {α : Type} (le : α → α → Bool) (l : List α) : (sortBy le l).length = l.length := by
  induction l with
  | nil => rfl
  | cons x t ih => exact (length_insertBy le x _).trans (congrArg (· + 1) ih)

theorem LaneAcc.replayed_eq_nil {q : LaneAcc} {xs : List LaneAddr} : q.replayed xs = [] ↔ xs = [] := by
  rw [← List.length_eq_zero_iff, ← List.length_eq_zero_iff]
  unfold LaneAcc.replayed
  split
  · rw [replayOrder, length_sortBy]
  · exact Iff.rfl

/-- What the lanes `xs` of a store of the words `ws` put into the buffer, in the order in which they perform. -/
def LaneAcc.laneStores (q : LaneAcc) (ws : List (Nat → Dword)) (xs : List LaneAddr) : List LaneStore :=
  (q.replayed xs).map fun y =>
    { lane := y.lane, place := y.place, addr := y.addr, va := y.va, bytes := storeBytes q.size ws y.lane }

theorem LaneAcc.laneStores_isEmpty {q : LaneAcc} {ws : List (Nat → Dword)} {xs : List LaneAddr} :
    (q.laneStores ws xs).isEmpty = true ↔ xs = [] := by
  rw [List.isEmpty_iff, LaneAcc.laneStores, List.map_eq_nil_iff, LaneAcc.replayed_eq_nil]

/-- The context in which a store whose lanes `xs` have passed their checks acts. -/
def Ctx.storing (c1 : Ctx) (q : LaneAcc) (xs : List LaneAddr) : Ctx :=
  ((c1.fillTlbs xs).watched true xs).externalIf (q.leaves && !xs.isEmpty)

/-- What a store into the buffer, as to every space but that of STP, comes to, by what the checks of its lanes find; `c1` is
the context once its operands have been read. -/
def Ctx.bufferStore (c c1 : Ctx) (q : LaneAcc) (ws : List (Nat → Dword)) : Scan → Act
  | .wait => .park c q.waits
  | .trap t => .trap c t
  | .miss va => c.parkXlate va true
  | .ok xs =>
    let c2 := c1.storing q xs
    if (q.laneStores ws xs).isEmpty then .next c2 (c.window q.la q.protect)
    else match c2.out.store c2.r.wave c2.r.slice c2.st.region.isSome (q.laneStores ws xs) with
      | some s => .next (c2.reload s) (c.window q.la q.protect)
      | none => .park c .full

theorem Ctx.storeOp_eq_reading {q : LaneAcc} (buffered : ∀ off, q.space ≠ .priv off) (c : Ctx) (illegal : Bool) :
    c.storeOp q illegal = c.reading (q.need c (c.storeXOk q) illegal false) (q.aSrc :: q.words) fun c0 c1 vals =>
      c0.bufferStore c1 q (vals.drop 1) (c1.scan q (vals.getD 0 fun _ => 0)) := by
  obtain ⟨x, a, size, space, wr, regs, la⟩ := q
  cases space with
  | priv off => exact absurd rfl (buffered off)
  | _ => rfl

theorem storeRuns_buffered {c c1 : Ctx} {q : LaneAcc} {illegal : Bool} {av : Nat → Dword} {ws : List (Nat → Dword)}
    (runs : StoreRuns c q illegal c1 av ws) (buffered : ∀ off, q.space ≠ .priv off) :
    c.Passes (q.need c (c.storeXOk q) illegal false) ∧ c.readAll (q.aSrc :: q.words) = .ok c1 (av :: ws) := by
  obtain ⟨passes, operands⟩ := runs
  obtain ⟨x, a, size, space, wr, regs, la⟩ := q
  cases space with
  | priv off => exact absurd rfl (buffered off)
  | _ => exact ⟨passes, operands⟩

theorem Ctx.storeOp_eq {c c1 : Ctx} {q : LaneAcc} {illegal : Bool} {av : Nat → Dword} {ws : List (Nat → Dword)}
    (buffered : ∀ off, q.space ≠ .priv off) (runs : StoreRuns c q illegal c1 av ws) :
    c.storeOp q illegal = c.bufferStore c1 q ws (c1.scan q av) := by
  obtain ⟨passes, operands⟩ := storeRuns_buffered runs buffered
  rw [Ctx.storeOp_eq_reading buffered, Ctx.reading_eq passes operands]
  rfl

section
variable {c c1 : Ctx} {q : LaneAcc} {ws : List (Nat → Dword)} {xs : List LaneAddr}

theorem Ctx.bufferStore_noLanes (noLanes : xs = []) :
    c.bufferStore c1 q ws (.ok xs) = .next (c1.storing q xs) (c.window q.la q.protect) :=
  if_pos (LaneAcc.laneStores_isEmpty.2 noLanes)

theorem Ctx.bufferStore_room {t : State} (lanes : xs ≠ [])
    (room : (c1.storing q xs).out.store (c1.storing q xs).r.wave (c1.storing q xs).r.slice
      (c1.storing q xs).st.region.isSome (q.laneStores ws xs) = some t) :
    c.bufferStore c1 q ws (.ok xs) = .next ((c1.storing q xs).reload t) (c.window q.la q.protect) := by
  simp only [Ctx.bufferStore, if_neg (mt LaneAcc.laneStores_isEmpty.1 lanes), room]

theorem Ctx.bufferStore_noRoom (lanes : xs ≠ [])
    (full : (c1.storing q xs).out.store (c1.storing q xs).r.wave (c1.storing q xs).r.slice
      (c1.storing q xs).st.region.isSome (q.laneStores ws xs) = none) :
    c.bufferStore c1 q ws (.ok xs) = .park c .full := by
  simp only [Ctx.bufferStore, if_neg (mt LaneAcc.laneStores_isEmpty.1 lanes), full]

end

/-- The instruction of a form stores as its access says, with lookahead `la`, and into the buffer. -/
structure BuffersAs (s : State) (c : Ctx) (la : BitVec 4) (f : AccForm) : Prop where
  arm : exec f.i s = .next (c.storeOp f.q f.illegal).state
  lookahead : f.q.la = la
  buffered : ∀ off, f.q.space ≠ .priv off

theorem storeForms_bufferAs {s : State} {c : Ctx} {x a : Spec} {la : BitVec 4} {k z : BitVec 2} (h : s.Issues c) :
    ∀ f ∈ storeForms x a la k z, BuffersAs s c la f := by
  simp only [storeForms, List.forall_mem_cons, List.not_mem_nil, false_implies, implies_true, and_true]
  and_intros
  all_goals exact ⟨issued_eq h _, rfl, nofun⟩

/-- Settles O31: each of the forms stores into the buffer, and what the checks of its lanes find decides how. -/
theorem storesIssue : Obligations.StoresIssue := by
  unfold Obligations.StoresIssue
  intro s c c1 x a la k z av ws issues f hf runs win
  obtain ⟨arm, lookahead, buffered⟩ := storeForms_bufferAs issues f hf
  rw [Ctx.storeOp_eq buffered runs] at arm
  obtain rfl := lookahead
  refine ⟨?_, fun t trapped => ?_⟩
  · intro xs passed c2 ls
    rw [passed] at arm
    refine ⟨fun noLanes => ?_, fun lanes t room => ?_, fun lanes full => ?_⟩
    · rw [arm, Ctx.bufferStore_noLanes noLanes]
      rfl
    · rw [arm, Ctx.bufferStore_room lanes room]
      rfl
    · rw [arm, Ctx.bufferStore_noRoom lanes full]
      rfl
  · rw [trapped] at arm
    exact arm

end Sys2Proof.Machine
end

section
/-!
PROOFS. ACPY, CWAIT and CPOLL (R229, R269 to R275).
-/

namespace Sys2Proof.Machine

open Sys2Proof.Claims

section
variable {s : State} {c : Ctx} {x a : Spec} {la : BitVec 4}

theorem next_gate_eq {n : Need} (passes : c.Passes n) (body : Ctx → Act) :
    Host.Outcome.next (φ := Fault) (ρ := Refusal) (c.gate n body).state = .next (body c).state := by
  rw [Ctx.gate_eq passes]

/-! Waiting and polling (R275). -/

theorem execCwait_idle (issues : s.Issues c) (passes : c.Passes (c.tokenNeed x a))
    (idle : ∀ i ∈ maskTokens (c.uval a), (c.w.token i).count = 0) :
    exec (.cwait x a la) s = .next ((({ c.acquireTokens (maskTokens (c.uval a)) with
      w := { c.w with tokens := c.w.tokens.mapIdx fun i y =>
        if (maskTokens (c.uval a)).contains i then { y with err := false } else y } } : Ctx).setSpec x
          (tokenBits c.w (maskTokens (c.uval a)) (·.err))).done (c.window la (specRegs x 1 ++ specRegs a 1))) := by
  have noneBusy : ¬ ((maskTokens (c.uval a)).any fun i => (c.w.token i).count != 0) = true := by
    simpa using idle
  exact (issued_eq issues _).trans ((next_gate_eq passes _).trans (congrArg (fun act : Act => Host.Outcome.next act.state)
    (if_neg noneBusy)))

theorem execCwait_busy (issues : s.Issues c) (passes : c.Passes (c.tokenNeed x a))
    (busy : ∃ i ∈ maskTokens (c.uval a), (c.w.token i).count ≠ 0) :
    exec (.cwait x a la) s = .next ({ c with f := { c.f with park := some .copies } } : Ctx).out := by
  have someBusy : ((maskTokens (c.uval a)).any fun i => (c.w.token i).count != 0) = true := by
    simpa using busy
  exact (issued_eq issues _).trans ((next_gate_eq passes _).trans (congrArg (fun act : Act => Host.Outcome.next act.state)
    (if_pos someBusy)))

end

/-! Issue (R269 to R273). -/

theorem Core.clamped_idle {k : Core} (noCopies : k.copies = []) (noLocks : k.locks = []) (src dst : Option Span) :
    k.clamped src dst = false := by
  simp [Core.clamped, noCopies, noLocks]

theorem Block.tagged_noCells {b : Block} (noCells : b.cells = []) (lo n : Nat) : b.tagged lo n = false := by
  simp [Block.tagged, noCells]

/-- The control word of a descriptor (R270). -/
abbrev copyCtl (bs : List Byte) : CopyCtl := CopyCtl.of (BitVec.ofNat 32 (fieldAt bs 60 4))

/-- The copy that a descriptor `bs` names, under the token `tok` and in entry `idx` of the core's copy queue. -/
def Ctx.newCopy (c : Ctx) (tok : Nat) (bs : List Byte) (idx : Nat) : Copy :=
  let k := copyCtl bs
  let src := (copySides c bs).1
  let dst := (copySides c bs).2
  { idx := idx, wave := c.r.wave, token := tok, src := src, dst := dst, counts := copyCounts bs, esz := k.esz
    cell := if k.bar then some (16 * k.bcell) else none
    srcSpan := src.span (copyCounts bs) k.esz c.blockId c.asid
    dstSpan := dst.span (copyCounts bs) k.esz c.blockId c.asid
    eseq := c.w.eseq, slice := c.r.slice, pc := c.f.pc, issued := c.s.cycle }

/-- A side of a copy is a user of the handle that it names, where it names one (R190). -/
def State.useSideHandle (s : State) (core : Nat) : Option Nat → State
  | some h => s.addUser core h
  | none => s

/-- The context once a copy has issued and is in flight. -/
def Ctx.copyIssued (c : Ctx) (tok : Nat) (bs : List Byte) (idx : Nat) : Ctx :=
  let src := (copySides c bs).1
  let dst := (copySides c bs).2
  let queued := c.s.updCore c.w.core fun y => { y with copies := y.copies ++ [c.newCopy tok bs idx] }
  { c with
    s := (queued.useSideHandle c.w.core src.handle).useSideHandle c.w.core dst.handle
    w := { c.w with
      eseq := c.w.eseq + 1
      tokens := c.w.tokens.modify tok fun y => { y with count := y.count + 1, acq := max y.acq dst.level } } }

/-- The context once an empty copy has issued. -/
def Ctx.copySkipped (c : Ctx) : Ctx := { c with w := { c.w with eseq := c.w.eseq + 1 } }

theorem execAcpy_reads {s : State} {c : Ctx} {a : Spec} {la : BitVec 4} {t : BitVec 3} {bs : List Byte} {idx : Nat}
    (issues : s.Issues c) (runs : CopyRuns c a bs idx) :
    exec (.acpy a la t) s = .next (c.issueCopy t.toNat bs (c.window la (specRegs a 1))).state := by
  have outside : ¬ c.block.scrSize < c.cellOff a + 64 := Nat.not_lt.2 runs.inside
  refine (issued_eq issues _).trans ((next_gate_eq runs.passes _).trans ?_)
  simp only [runs.live, runs.aligned, outside, runs.unlocked, runs.bytes, bne_self_eq_false, Bool.false_eq_true, if_false]

theorem Ctx.issueCopy_runs {c : Ctx} {a : Spec} {bs : List Byte} {idx : Nat} (runs : CopyRuns c a bs idx)
    (localSrc : (copyCtl bs).ssp < 2) (localDst : (copyCtl bs).dsp < 2) (tok : Nat) (win : Option Window) :
    c.issueCopy tok bs win = .next (if nestSize (copyCounts bs) = 0 ∧ (copyCtl bs).bar = false then c.copySkipped
      else c.copyIssued tok bs idx) win := by
  obtain ⟨sourceSide, sourceBuf, sourceHandle⟩ := runs.source
  obtain ⟨targetSide, targetBuf, targetHandle⟩ := runs.target
  obtain ⟨noWindow, notOwed, noLoad⟩ := runs.bases
  obtain ⟨srcAligned, dstAligned, srcInside, dstInside⟩ := runs.elements
  obtain ⟨notShadow, -⟩ := runs.screen
  obtain ⟨noCopies, noLocks⟩ := runs.clear
  have noClobber : ∀ lo n, c.block.tagged lo n = false := Block.tagged_noCells runs.cells
  have idle := Core.clamped_idle noCopies noLocks
  have rightSrc : ((copyCtl bs).ssp == 1 && (copyCtl bs).ssel != 2) = false := by simpa using sourceBuf
  have rightDst : ((copyCtl bs).dsp == 1 && (copyCtl bs).dsel == 2) = false := by simpa using targetBuf
  have noWindows := List.find?_eq_none.2 fun w hw => (noWindow w hw).symm ▸ Bool.false_ne_true
  have noLoads : (c.w.loads.any fun l => l.slice == c.r.slice && meets l.writes
      (sideRegs (copyCtl bs).ssp (copyCtl bs).ssel ++ sideRegs (copyCtl bs).dsp (copyCtl bs).dsel)) = false := by
    simpa using noLoad
  have narrowSrc : decide (2 ≤ (copyCtl bs).ssp) = false := decide_eq_false (Nat.not_le.2 localSrc)
  have narrowDst : decide (2 ≤ (copyCtl bs).dsp) = false := decide_eq_false (Nat.not_le.2 localDst)
  unfold Ctx.issueCopy
  simp only [copySides, copyCounts] at srcAligned dstAligned srcInside dstInside ⊢
  simp only [runs.reserved, sourceSide, targetSide, noWindows, noLoads, notOwed, rightSrc, rightDst, sourceHandle,
    targetHandle, srcAligned, dstAligned, srcInside, dstInside, notShadow, runs.entry, idle, narrowSrc, narrowDst,
    Ctx.externalIf, Bool.or_false, Bool.false_and, Bool.false_eq_true, if_false, Option.orElse_none]
  refine (if_neg ?_).trans ?_
  · split
    · rw [noClobber, Bool.and_false]
      exact Bool.false_ne_true
    · exact Bool.false_ne_true
  · simp only [Bool.and_eq_true, beq_iff_eq, Bool.not_eq_true']
    split
    · next empty => exact congrArg (Act.next · win) (if_pos empty).symm
    · next full => exact congrArg (Act.next · win) (if_neg full).symm

/-- Settles O39, by what ACPY reads and issues, and by the lemmas on CWAIT; CPOLL and CPOLL.e check and act. -/
theorem copies : Obligations.Copies := by
  unfold Obligations.Copies
  intro s c x a la t issues
  refine ⟨?_, ?_, fun passes => (issued_eq issues _).trans (next_gate_eq passes _)⟩
  · intro bs idx runs k src dst cp user issued tokens c1 c0 localSrc localDst
    rw [execAcpy_reads issues runs, Ctx.issueCopy_runs runs localSrc localDst]
    rfl
  · intro passes l win cleared
    exact ⟨execCwait_idle issues passes, execCwait_busy issues passes,
      (issued_eq issues _).trans (next_gate_eq passes _)⟩

end Sys2Proof.Machine
end

section
/-!
PROOFS. A wave reads its own stores (R204, R206, R207): the bytes of a store stand in the sectors it was split into, a later
lane's before an earlier one's, and a store changes nothing else of what a load reads.
-/

namespace Sys2Proof.Machine

/-! The bytes of a lane's store, split by sector. -/

/-- The lane stores the byte at address `a` of place `p`. -/
def LaneStore.covers (x : LaneStore) (p : Place) (a : Nat) : Bool :=
  x.place == p && decide (x.addr ≤ a) && decide (a < x.addr + x.bytes.length)

theorem LaneStore.covers_iff {x : LaneStore} {p : Place} {a : Nat} :
    x.covers p a = true ↔ x.place = p ∧ x.addr ≤ a ∧ a < x.addr + x.bytes.length := by
  simp [LaneStore.covers, and_assoc]

/-- The byte at address `a` of place `p` that a part of a store brings, the last where it brings several. -/
def partByte (p : Place) (a : Nat) (q : SecKey × Nat × List (Nat × Byte)) : Option Byte :=
  if q.1 == ⟨p, a / 32⟩ then (q.2.2.reverse.find? (·.1 == a % 32)).map (·.2) else none

/-- The bytes of a lane's store that lie in sector `sec`, with their places in it. -/
def LaneStore.inSector (x : LaneStore) (sec : Nat) : List (Nat × Byte) :=
  (List.range x.bytes.length).filterMap fun j =>
    if (x.addr + j) / 32 == sec then some ((x.addr + j) % 32, x.bytes.getD j 0) else none

theorem LaneStore.find?_inSector (x : LaneStore) (a : Nat) :
    (x.inSector (a / 32)).reverse.find? (·.1 == a % 32) =
      if x.addr ≤ a ∧ a < x.addr + x.bytes.length then some (a % 32, x.bytes.getD (a - x.addr) 0) else none := by
  rw [LaneStore.inSector, ← List.filterMap_reverse, List.find?_filterMap]
  split
  · next inside =>
    have there : ∀ j, ((if (x.addr + j) / 32 == a / 32 then some ((x.addr + j) % 32, x.bytes.getD j 0) else none).any
        (·.1 == a % 32)) = true ↔ j = a - x.addr := fun j => by
      split <;> simp_all <;> omega
    cases found : (List.range x.bytes.length).reverse.find? _ with
    | none =>
      have missing := List.find?_eq_none.1 found (a - x.addr) (by simp; omega)
      exact absurd ((there _).2 rfl) missing
    | some j =>
      obtain rfl := (there j).1 (by simpa only using List.find?_some found)
      simp [Nat.add_sub_of_le inside.1]
  · next outside =>
    rw [Option.bind_eq_none_iff]
    intro j found
    have hit := List.find?_some found
    have inRange := List.mem_of_find?_eq_some found
    split at hit <;> simp_all
    omega

/-- What the part of a lane's store in the `i`-th sector from its first brings. -/
theorem LaneStore.partByte_part (x : LaneStore) (p : Place) (a i va : Nat) :
    partByte p a (⟨x.place, x.addr / 32 + i⟩, va, x.inSector (x.addr / 32 + i)) =
      if x.covers p a = true ∧ x.addr / 32 + i = a / 32 then some (x.bytes.getD (a - x.addr) 0) else none := by
  by_cases here : x.place = p ∧ x.addr / 32 + i = a / 32
  · obtain ⟨place, sector⟩ := here
    simp only [partByte, place, sector, beq_self_eq_true, if_true, LaneStore.find?_inSector, LaneStore.covers_iff,
      true_and, and_true]
    split <;> rfl
  · have elsewhere : ¬ (x.covers p a = true ∧ x.addr / 32 + i = a / 32) := fun ⟨covered, sector⟩ =>
      here ⟨(LaneStore.covers_iff.1 covered).1, sector⟩
    have otherKey : ¬ ((⟨x.place, x.addr / 32 + i⟩ : SecKey) == ⟨p, a / 32⟩) = true := by simpa using here
    rw [partByte, if_neg otherKey, if_neg elsewhere]

theorem LaneStore.findSome?_parts (x : LaneStore) (p : Place) (a : Nat) :
    x.parts.reverse.findSome? (partByte p a) =
      if x.covers p a = true then some (x.bytes.getD (a - x.addr) 0) else none := by
  have parts : x.parts = (List.range ((x.addr + x.bytes.length - 1) / 32 - x.addr / 32 + 1)).map fun i =>
    (⟨x.place, x.addr / 32 + i⟩, x.va / 32 + i, x.inSector (x.addr / 32 + i)) := rfl
  rw [parts, ← List.map_reverse, List.findSome?_map]
  cases found : List.findSome? _ _ with
  | some b =>
    obtain ⟨i, -, brings⟩ := List.exists_of_findSome?_eq_some found
    rw [Function.comp_apply, LaneStore.partByte_part] at brings
    split at brings
    · next here => rw [if_pos here.1, brings]
    · cases brings
  | none =>
    refine (if_neg fun covered => ?_).symm
    obtain ⟨-, above, below⟩ := LaneStore.covers_iff.1 covered
    have brings := List.findSome?_eq_none_iff.1 found (a / 32 - x.addr / 32) (by simp; omega)
    rw [Function.comp_apply, LaneStore.partByte_part, if_pos ⟨covered, by omega⟩] at brings
    cases brings

/-- Of the lanes of a store, the last that stores a byte gives it its value. -/
theorem findSome?_flatMap_parts (xs : List LaneStore) (p : Place) (a : Nat) :
    (xs.flatMap LaneStore.parts).reverse.findSome? (partByte p a) =
      (xs.reverse.find? (·.covers p a)).map fun x => x.bytes.getD (a - x.addr) 0 := by
  induction xs with
  | nil => rfl
  | cons x t ih =>
    rw [List.flatMap_cons, List.reverse_append, List.findSome?_append, ih, LaneStore.findSome?_parts, List.reverse_cons,
      List.find?_append]
    cases t.reverse.find? (·.covers p a) with
    | some y => rfl
    | none => by_cases covered : x.covers p a = true <;> simp [covered]

/-! What a store changes of a wave, and what a load then reads. -/

/-- The parts of a store that wave `w` issues from slice `sl`, still to settle. -/
def State.pendings (s : State) (w : Nat) (sl : Slice) (region : Bool) (parts : List (SecKey × Nat × List (Nat × Byte))) :
    List Pend :=
  parts.map fun p =>
    { seq := (s.wave w).seq, issued := s.cycle, slice := sl, key := p.1, va := p.2.1, bytes := p.2.2, region := region
      fence := ((s.wave w).stream sl).fence }

/-- The wave with the parts `ps` of a store in its buffer and `n` the order number of what it issues next. -/
def Wave.withStore (w : Wave) (n : Nat) (ps : List Pend) : Wave := { w with pend := w.pend ++ ps, seq := n }

theorem State.store_of_room {s t : State} {w : Nat} {sl : Slice} {region : Bool} {xs : List LaneStore}
    (room : s.roomFor w ((xs.flatMap LaneStore.parts).map (·.1)).eraseDups (Config.wwbSectors + 1) = some s)
    (stored : s.store w sl region xs = some t) :
    t = s.updWave w (·.withStore ((s.wave w).seq + 1) (s.pendings w sl region (xs.flatMap LaneStore.parts))) := by
  simp only [State.store, room] at stored
  exact (Option.some.inj stored).symm

theorem Wave.wwbByte_withStore (x : Wave) (s : State) (w n : Nat) (sl : Slice) (region : Bool)
    (parts : List (SecKey × Nat × List (Nat × Byte))) (p : Place) (a : Nat) :
    (x.withStore n (s.pendings w sl region parts)).wwbByte none p a =
      (parts.reverse.findSome? (partByte p a)).or (x.wwbByte none p a) := by
  simp only [Wave.wwbByte, Wave.withStore, State.pendings, List.reverse_append, ← List.map_reverse,
    List.findSome?_append, List.findSome?_map, Option.elim_none, Bool.and_true]
  change (match (List.findSome? (partByte p a) parts.reverse).or _ with
    | some b => some b
    | none => _) = _
  cases parts.reverse.findSome? (partByte p a) <;> rfl

/-- An update of a wave that leaves its fragments leaves what stands finally, the counts of parked waves in cells
included. -/
theorem State.readPlace_updWave {s : State} {w : Nat} {f : Wave → Wave} (there : w < s.waves.length)
    (frags : (f (s.wave w)).frags = (s.wave w).frags)
    (p : Place) (a : Nat) : (s.updWave w f).readPlace p a = s.readPlace p a := by
  have sameFrags : ∀ v, ((s.updWave w f).wave v).frags = (s.wave v).frags := fun v => by
    by_cases same : v = w
    · rw [same, State.wave_updWave _ _ _ there, frags]
    · rw [State.wave_updWave_ne _ _ _ _ same]
  have pkw : ∀ b off, (s.updWave w f).pkw b off = s.pkw b off := fun b off => by
    simp only [State.pkw, sameFrags]
    rfl
  cases p with
  | scr b =>
    simp only [State.readPlace, pkw]
    rfl
  | _ => rfl

theorem State.loadByte_of_wwbByte {s : State} {w : Nat} {before : Option Nat} {p : Place} {a : Nat} {b : Byte}
    (buffered : (s.wave w).wwbByte before p a = some b) : s.loadByte w before p a = (b, false) := by
  simp only [State.loadByte, buffered]
  rfl

theorem State.loadByte_updWave {s : State} {w : Nat} {f : Wave → Wave} {before : Option Nat} {p : Place} {a : Nat}
    (there : w < s.waves.length) (block : (f (s.wave w)).block = (s.wave w).block)
    (core : (f (s.wave w)).core = (s.wave w).core) (frags : (f (s.wave w)).frags = (s.wave w).frags)
    (wwb : (f (s.wave w)).wwbByte before p a = (s.wave w).wwbByte before p a) :
    (s.updWave w f).loadByte w before p a = s.loadByte w before p a := by
  have home : ∀ lid, (s.updWave w f).homeByte lid p a = s.homeByte lid p a := fun lid => by
    simp only [State.homeByte, State.readPlace_updWave there frags]
    rfl
  have line : ∀ lid core, (s.updWave w f).lineByte lid core p a = s.lineByte lid core p a := fun lid core => by
    simp only [State.lineByte, home]
    rfl
  simp only [State.loadByte, State.wave_updWave s w f there, block, core, wwb, State.readPlace_updWave there frags, line]
  rfl

/-- Settles O32: a byte that the store names stands in the wave's buffer, and every other is read as before. -/
theorem storeVisible : Obligations.StoreVisible := by
  unfold Obligations.StoreVisible
  intro s t w sl region xs there room stored p a
  obtain rfl := State.store_of_room room stored
  have buffer := Wave.wwbByte_withStore (s.wave w) s w ((s.wave w).seq + 1) sl region (xs.flatMap LaneStore.parts) p a
  rw [findSome?_flatMap_parts] at buffer
  change _ = match xs.reverse.find? (·.covers p a) with
    | some x => (x.bytes.getD (a - x.addr) 0, false)
    | none => s.loadByte w none p a
  cases last : xs.reverse.find? (·.covers p a) with
  | some x =>
    rw [last] at buffer
    refine State.loadByte_of_wwbByte ?_
    rw [State.wave_updWave _ _ _ there]
    exact buffer
  | none =>
    rw [last] at buffer
    exact State.loadByte_updWave there rfl rfl rfl buffer

end Sys2Proof.Machine
end

section
/-!
PROOFS. What moves stores outward leaves the waves: writing out copies of lines leaves them as they are, and commits leave
their lanes and fragments (R204 to R217, R416).
-/

namespace Sys2Proof.Machine

theorem keeps_foldl {α β γ : Type} {f : β → γ} {g : β → α → β} (keeps : ∀ b a, f (g b a) = f b) (l : List α)
    (b : β) : f (l.foldl g b) = f b :=
  formed_foldl (fun y => f y = f b) rfl fun y x same => (keeps y x).trans same

theorem keeps_ite {β γ : Type} {f : β → γ} {p : Prop} [Decidable p] {x y : β} {z : γ} (first : f x = z)
    (second : f y = z) : f (if p then x else y) = z :=
  formed_ite (fun x => f x = z) first second

/-! Bytes that reach their place change no wave. -/

@[simp] theorem State.setPoison_waves (s : State) (k : SecKey) (on : Bool) : (s.setPoison k on).waves = s.waves := rfl

@[simp] theorem State.writePlace_waves (s : State) (p : Place) (a : Nat) (v : Byte) :
    (s.writePlace p a v).waves = s.waves := by
  cases p <;> rfl

@[simp] theorem State.putRun_waves (s : State) (p : Place) (a : Nat) (bs : List Byte) :
    (s.putRun p a bs).waves = s.waves := by
  induction bs generalizing s a with
  | nil => rfl
  | cons b t ih => exact (ih _ _).trans (State.writePlace_waves _ _ _ _)

@[simp] theorem State.writeBytes_waves (s : State) (p : Place) (a : Nat) (bs : List Byte) :
    (s.writeBytes p a bs).waves = s.waves :=
  (keeps_foldl (f := State.waves) (by intros; rfl) _ _).trans (State.putRun_waves _ _ _ _)

@[simp] theorem State.writeHome_waves (s : State) (lid : Nat) (p : Place) (a : Nat) (v : Byte) :
    (s.writeHome lid p a v).waves = s.waves :=
  keeps_ite (f := State.waves) rfl (State.writePlace_waves _ _ _ _)

@[simp] theorem State.markHome_waves (s : State) (launch : Option Nat) (k : SecKey) (b : Bool) :
    (s.markHome launch k b).waves = s.waves := by
  cases launch with
  | none => rfl
  | some lid => exact keeps_ite (f := State.waves) rfl rfl

@[simp] theorem State.writeBack_waves (s : State) (c : LineCopy) (m : Mask) : (s.writeBack c m).waves = s.waves := by
  unfold State.writeBack
  extract_lets whole put byte home
  have keepsByte : ∀ s i, (byte s i).waves = s.waves := fun s i => by
    dsimp only [byte]
    split
    · exact State.writeHome_waves _ _ _ _ _
    · exact State.writePlace_waves _ _ _ _
  have keepsBytes : ∀ s : State,
      ((List.range 32).foldl (fun s i => if c.sends m i then byte s i else s) s).waves = s.waves :=
    fun s => keeps_foldl (fun s i => keeps_ite (f := State.waves) (keepsByte s i) rfl) _ _
  have keepsHome : ∀ s, (home s).waves = s.waves := fun s =>
    keeps_ite (f := State.waves) ((State.markHome_waves _ _ _ _).trans (keepsBytes s))
      (keeps_ite (f := State.waves) ((State.markHome_waves _ _ _ _).trans (keepsBytes s)) (keepsBytes s))
  refine keeps_ite (f := State.waves) rfl ?_
  split
  · exact keeps_ite (f := State.waves) rfl (keepsHome _)
  · exact keepsHome _

@[simp] theorem State.writeOut_waves (s : State) (c : LineCopy) : (s.writeOut c).waves = s.waves :=
  State.writeBack_waves _ _ _

@[simp] theorem State.writeOuts_waves (s : State) (p : LineCopy → Bool) : (s.writeOuts p).waves = s.waves :=
  (keeps_foldl (fun _ _ => State.writeOut_waves _ _) _ _).trans (keeps_foldl (fun _ _ => State.writeOut_waves _ _) _ _)

@[simp] theorem State.giveWay_waves (s : State) (core cluster : Option Nat) (k : Sector) :
    (s.giveWay core cluster k).waves = s.waves :=
  keeps_foldl (f := State.waves) (by intros; exact State.writeBack_waves _ _ _) _ _

/-! Nor do requests to peers. -/

@[simp] theorem State.parkFault_waves (s : State) (die fn asid va : Nat) (write : Bool) (who : Requester) :
    (s.parkFault die fn asid va write who).1.waves = s.waves :=
  keeps_ite (f := fun x : State × Option Nat => x.1.waves) rfl rfl

@[simp] theorem State.parkPeer_waves (s : State) (fn asid va : Nat) (write : Bool) (who : Requester) :
    (s.parkPeer fn asid va write who).waves = s.waves := by
  simp only [State.parkPeer]
  split <;> exact State.parkFault_waves _ _ _ _ _ _ _

@[simp] theorem writeScattered_waves (s : State) (ps : List Nat) (bs : List Byte) :
    (writeScattered s ps bs).waves = s.waves := by
  induction ps generalizing s bs with
  | nil => rfl
  | cons p ps ih =>
    cases bs with
    | nil => rfl
    | cons b bs => exact ih _ _

@[simp] theorem State.peerAccess_waves (s : State) (fadd : Word → Word → Word) (fn off : Nat) (ask : PeerAsk) :
    (s.peerAccess fadd fn off ask).1.waves = s.waves := by
  unfold State.peerAccess
  refine keeps_ite (f := fun x : State × PeerOutcome => x.1.waves) rfl
    (keeps_ite (f := fun x : State × PeerOutcome => x.1.waves) rfl ?_)
  dsimp only
  split
  · rfl
  · cases ask with
    | load n => rfl
    | store bs => exact (keeps_foldl (f := State.waves) (by intros; rfl) _ _).trans (writeScattered_waves _ _ _)
    | atomic op et d swap =>
      exact keeps_ite (f := fun x : State × PeerOutcome => x.1.waves) rfl (writeScattered_waves _ _ _)

@[simp] theorem State.countNak_waves (s : State) (w : Nat) (dflt : Bool) (a : PeerAnswer) :
    (s.countNak w dflt a).waves = s.waves := by
  unfold State.countNak
  split
  · rfl
  · rfl
  · exact keeps_ite (f := State.waves) rfl rfl

@[simp] theorem State.askPeer_waves (s : State) (fn node off : Nat) (ask : PeerAsk) (wave : Nat) (dflt : Bool) :
    (s.askPeer fn node off ask wave dflt).1.waves = s.waves := by
  simp only [State.askPeer]
  split
  · exact keeps_ite (f := fun x : State × Nat => x.1.waves) (State.countNak_waves _ _ _ _) rfl
  · next f _ =>
    have access := State.peerAccess_waves s fadd32 f.fn off ask
    split
    · next found =>
      rw [found] at access
      exact (State.countNak_waves _ _ _ _).trans access
    · next found =>
      rw [found] at access
      exact (State.parkPeer_waves _ _ _ _ _ _).trans access

@[simp] theorem State.deliver_waves (s : State) (w : Nat) (dflt : Bool) (here : Nat → Bool) (k : Sector) :
    (s.deliver w dflt here k).1.waves = s.waves := by
  unfold State.deliver
  refine keeps_ite (f := fun x : State × List Nat => x.1.waves) rfl ?_
  split
  · exact keeps_foldl (f := fun x : State × List Nat => x.1.waves) (fun _ _ => State.askPeer_waves _ _ _ _ _ _ _) _ _
  · have written : ∀ (s : State) (rs : List (Nat × List Byte)), (rs.foldl (fun s r =>
        s.writeBytes k.key.place (32 * k.key.idx + r.1) r.2) s).waves = s.waves :=
      fun s rs => keeps_foldl (fun _ _ => State.writeBytes_waves _ _ _ _) _ _
    dsimp only
    have marked : ∀ s : State, (if k.marked = true then s.setPoison k.key true else s).waves = s.waves :=
      fun s => keeps_ite (f := State.waves) rfl rfl
    exact keeps_ite (f := State.waves) ((marked _).trans (written _ _)) ((marked _).trans (written _ _))

@[simp] theorem State.sign_waves (s : State) (b : Nat) (k : Sector) : (s.sign b k).waves = s.waves :=
  keeps_ite (f := State.waves) rfl rfl

/-! The lanes and fragments of the waves. -/

/-- Of a stream, the lanes that have exited in it and its fragments. -/
def Stream.laneView (st : Stream) : Mask × List (Option Frag) := (st.exited, st.frags)

/-- The live lanes of a wave, and of each of its streams the lanes that have exited in it and its fragments. -/
abbrev LaneView := Mask × (Mask × List (Option Frag)) × (Mask × List (Option Frag))

def Wave.laneView (w : Wave) : LaneView :=
  (w.live, (w.stream .a).laneView, (w.stream .c).laneView)

/-- The live lanes and the fragments of every wave. -/
def State.laneViews (s : State) : List LaneView := s.waves.map Wave.laneView

@[simp] theorem Wave.live_setStream (w : Wave) (sl : Slice) (st : Stream) : (w.setStream sl st).live = w.live := by
  cases sl <;> rfl

theorem Wave.laneView_setStream {w : Wave} {sl : Slice} {st : Stream} (same : st.laneView = (w.stream sl).laneView) :
    (w.setStream sl st).laneView = w.laneView := by
  cases sl <;> simpa [Wave.laneView, Wave.setStream, Wave.stream] using same

theorem Wave.stream_laneView {w v : Wave} (same : v.laneView = w.laneView) (sl : Slice) :
    (v.stream sl).laneView = (w.stream sl).laneView := by
  simp only [Wave.laneView, Prod.mk.injEq] at same
  cases sl
  · exact same.2.1
  · exact same.2.2

theorem State.laneViews_of_waves {s t : State} (same : t.waves = s.waves) : t.laneViews = s.laneViews := by
  rw [State.laneViews, same, State.laneViews]

theorem State.updWave_laneViews (s : State) (w : Nat) {f : Wave → Wave} (same : ∀ x, (f x).laneView = x.laneView) :
    (s.updWave w f).laneViews = s.laneViews := by
  refine List.ext_getElem? fun i => ?_
  simp only [State.laneViews, State.updWave, List.getElem?_map, List.getElem?_modify]
  cases s.waves[i]? with
  | none => rfl
  | some x => by_cases at' : w = i <;> simp [at', same]

@[simp] theorem State.setConflict_laneViews (s : State) (ws : List Nat) : (s.setConflict ws).laneViews = s.laneViews :=
  keeps_foldl (fun s w => s.updWave_laneViews w fun _ => rfl) _ _

@[simp] theorem State.setSpilled_laneViews (s : State) (ws : List Nat) (level : Nat) :
    (s.setSpilled ws level).laneViews = s.laneViews :=
  keeps_foldl (fun s w => s.updWave_laneViews w fun _ => rfl) _ _

@[simp] theorem State.breakRegions_laneViews (s : State) (k : Sector) : (s.breakRegions k).laneViews = s.laneViews :=
  keeps_foldl (fun s x => s.updWave_laneViews x.1 fun _ => Wave.laneView_setStream rfl) _ _

@[simp] theorem State.countSpill_laneViews (s : State) (w : Nat) : (s.countSpill w).laneViews = s.laneViews := rfl

@[simp] theorem State.deliver_laneViews (s : State) (w : Nat) (dflt : Bool) (here : Nat → Bool) (k : Sector) :
    (s.deliver w dflt here k).1.laneViews = s.laneViews :=
  State.laneViews_of_waves (State.deliver_waves _ _ _ _ _)

@[simp] theorem State.writeOuts_laneViews (s : State) (p : LineCopy → Bool) : (s.writeOuts p).laneViews = s.laneViews :=
  State.laneViews_of_waves (State.writeOuts_waves _ _)

@[simp] theorem State.giveWay_laneViews (s : State) (core cluster : Option Nat) (k : Sector) :
    (s.giveWay core cluster k).laneViews = s.laneViews :=
  State.laneViews_of_waves (State.giveWay_waves _ _ _ _)

@[simp] theorem State.sign_laneViews (s : State) (b : Nat) (k : Sector) : (s.sign b k).laneViews = s.laneViews :=
  State.laneViews_of_waves (State.sign_waves _ _ _)

/-! A sector that goes a level up. -/

@[simp] theorem State.trimProv_laneViews (s : State) (w lid : Nat) (die : Fin 4) :
    (s.trimProv w lid die).1.laneViews = s.laneViews := by
  unfold State.trimProv
  refine keeps_ite (f := fun x : State × List Nat => x.1.laneViews) rfl ?_
  split
  · rfl
  · next o _ =>
    simp only [State.deliver_laneViews, State.countSpill_laneViews, State.breakRegions_laneViews,
      State.setSpilled_laneViews]
    exact State.writeOuts_laneViews _ _

@[simp] theorem State.arriveL_laneViews (s : State) (w : Nat) (dflt spill : Bool) (k : Sector) :
    (s.arriveL w dflt spill k).1.laneViews = s.laneViews := by
  have signed := s.sign_laneViews (s.blockOf w) k
  refine keeps_ite (f := fun x : State × List Nat => x.1.laneViews) signed
    (keeps_ite (f := fun x : State × List Nat => x.1.laneViews) ?_ ((State.deliver_laneViews _ _ _ _ _).trans signed))
  refine (State.trimProv_laneViews _ _ _ _).trans ((State.setConflict_laneViews _ _).trans ?_)
  exact keeps_ite (f := State.laneViews) ((State.writeOuts_laneViews _ _).trans signed) signed

@[simp] theorem State.spillG_laneViews (s : State) (core : Nat) : (s.spillG core).laneViews = s.laneViews := by
  simp only [State.spillG]
  split
  · rfl
  · simp only [State.arriveL_laneViews, State.countSpill_laneViews, State.breakRegions_laneViews,
      State.setSpilled_laneViews]
    rfl

@[simp] theorem State.arriveG_laneViews (s : State) (w : Nat) (spill : Bool) (k : Sector) :
    (s.arriveG w spill k).1.laneViews = s.laneViews := by
  refine keeps_ite (f := fun x : State × List Nat => x.1.laneViews) (State.deliver_laneViews _ _ _ _ _)
    ((State.setConflict_laneViews _ _).trans ?_)
  exact keeps_ite (f := State.laneViews) ((State.spillG_laneViews _ _).trans (State.giveWay_laneViews _ _ _ _))
    (State.giveWay_laneViews _ _ _ _)

@[simp] theorem State.spillB_laneViews (s : State) (core : Nat) : (s.spillB core).laneViews = s.laneViews := by
  simp only [State.spillB]
  split
  · rfl
  · simp only [State.arriveG_laneViews, State.countSpill_laneViews, State.breakRegions_laneViews,
      State.setSpilled_laneViews]
    rfl

@[simp] theorem State.arriveB_laneViews (s : State) (w : Nat) (spill : Bool) (k : Sector) :
    (s.arriveB w spill k).laneViews = s.laneViews :=
  (State.setConflict_laneViews _ _).trans (keeps_ite (f := State.laneViews)
    ((State.spillB_laneViews _ _).trans (State.giveWay_laneViews _ _ _ _)) (State.giveWay_laneViews _ _ _ _))

theorem climb_laneViews {up : State → Sector → State × List Nat} (keeps : ∀ s k, (up s k).1.laneViews = s.laneViews)
    (s : State) (ks : List Sector) : (climb up s ks).1.laneViews = s.laneViews :=
  keeps_foldl (f := fun x : State × List Nat => x.1.laneViews) (by intros; exact keeps _ _) _ _

theorem State.commitWhere_laneViews (s : State) (w L cut : Nat) (dflt : Bool) (p : Nat → SecKey → Bool) :
    (s.commitWhere w L cut dflt p).1.laneViews = s.laneViews := by
  simp only [State.commitWhere]
  generalize hw : s.updWave w _ = s₁
  have h₁ : s₁.laneViews = s.laneViews := hw ▸ s.updWave_laneViews w fun _ => rfl
  generalize hb : List.foldl _ s₁ _ = s₂
  have h₂ : s₂.laneViews = s.laneViews := hb ▸ (keeps_foldl (fun _ _ => State.arriveB_laneViews _ _ _ _) _ _).trans h₁
  split
  · exact h₂
  · generalize hg : climb _ (s₂.updCore _ _) _ = r₃
    have h₃ : r₃.1.laneViews = s.laneViews :=
      hg ▸ (climb_laneViews (fun _ _ => State.arriveG_laneViews _ _ _ _) _ _).trans h₂
    split
    · exact h₃
    · generalize hl : climb _ (r₃.1.updCluster _ _) _ = r₄
      have h₄ : r₄.1.laneViews = s.laneViews :=
        hl ▸ (climb_laneViews (fun _ _ => State.arriveL_laneViews _ _ _ _ _) _ _).trans h₃
      split
      · exact h₄
      · exact (climb_laneViews (fun _ _ => State.deliver_laneViews _ _ _ _ _) _ _).trans
          ((State.writeOuts_laneViews _ _).trans h₄)

theorem State.commit_laneViews (s : State) (w L cut : Nat) (dflt : Bool) :
    (s.commit w L cut dflt).1.laneViews = s.laneViews :=
  State.commitWhere_laneViews _ _ _ _ _ _

/-! What the fragment at hand then finds (R34). -/

@[simp] theorem Ctx.externalIf_allHelpers (c : Ctx) (b : Bool) : (c.externalIf b).allHelpers = c.allHelpers := by
  cases b <;> rfl

/-- The wave of a context with its stream and its fragment put back. -/
def Ctx.putBack (c : Ctx) : Wave := c.w.setStream c.r.slice (c.st.setFrag c.r.entry (some c.f))

section
variable {c : Ctx} (there : Ctx.of? c.s c.r = some c)
include there

theorem Ctx.out_getElem? : c.out.waves[c.r.wave]? = some c.putBack := by
  obtain ⟨-, -, inWaves, -, -⟩ := Ctx.of?_some there
  simp only [Ctx.out, State.updWave, Ctx.putBack, List.getElem?_modify_eq, inWaves, Option.map_eq_map, Option.map_some]

/-- A context that lives in its state is found in a state that has its fragment. -/
theorem Ctx.reload_eq {t : State} {w : Wave} (inT : t.waves[c.r.wave]? = some w)
    (frags : (w.stream c.r.slice).frags = (c.putBack.stream c.r.slice).frags) :
    c.reload t = { s := t, r := c.r, w := w, st := w.stream c.r.slice, f := c.f } := by
  obtain ⟨-, -, -, -, inSplit⟩ := Ctx.of?_some there
  have frag : (w.stream c.r.slice).frag c.r.entry = some c.f := by
    rw [Stream.frag, frags, Ctx.putBack, Wave.stream_setStream]
    exact Stream.frag_setFrag c.st c.r.entry (some c.f) (Stream.frag_lt inSplit)
  simp only [Ctx.reload, Ctx.of?, inT, frag, Option.getD_some]

/-- The lanes of a context are helpers in a state whose waves have the same lanes and fragments where they were. -/
theorem Ctx.reload_allHelpers {t : State} (same : t.laneViews = c.out.laneViews) :
    (c.reload t).allHelpers = c.allHelpers := by
  have views : t.waves[c.r.wave]?.map Wave.laneView = some c.putBack.laneView := by
    rw [← List.getElem?_map, ← State.laneViews, same, State.laneViews, List.getElem?_map, Ctx.out_getElem? there,
      Option.map_some]
  obtain ⟨w, inT, view⟩ := Option.map_eq_some_iff.1 views
  obtain ⟨exited, frags⟩ := Prod.mk.inj (Wave.stream_laneView view c.r.slice)
  have live : w.live = c.w.live := (congrArg Prod.fst view).trans (Wave.live_setStream _ _ _)
  rw [Ctx.reload_eq there inT frags]
  simp only [Ctx.allHelpers, Ctx.liveNow, live, exited, Ctx.putBack, Wave.stream_setStream, Stream.setFrag_exited]

end

end Sys2Proof.Machine
end

section
/-!
PROOFS. CMT, ABT, ACQ and SYNC, settled and ready (R207, R208, R213, R214, R223, R224, R416).
-/

namespace Sys2Proof.Machine

open Sys2Proof.Claims

/-! Commits. -/

/-- A commit to level `L` has acted, and asked the peers for what `r` names; it waits for their answers. -/
def Ctx.committed (c : Ctx) (L : Nat) (h : Hold) : Ctx :=
  let r := c.out.commit c.r.wave L h.seq false
  let c1 := c.reload r.1
  ({ c1 with f := { c1.f with hold := some { h with arrived := true, reqs := r.2 } } } : Ctx).externalIf (2 ≤ L)

/-- A commit whose stores have all arrived, with what the core holds in copies narrower than its level written out. -/
def Ctx.commitDone (c : Ctx) (L : Nat) (h : Hold) : Ctx :=
  { c.committed L h with s := (c.committed L h).s.writeOutAll (c.committed L h).w.core L }

section
variable {s : State} {c : Ctx} {h : Hold} {L : Nat}

theorem Ctx.performCommit_helpers (helpers : c.allHelpers = true) (fin : Ctx → Act) : c.performCommit L h fin = fin c :=
  if_pos helpers

section
variable (acts : c.allHelpers = false) (first : h.arrived = false) (ready : c.s.commitReady c.r.wave L h.seq = true)
include acts first ready

theorem Ctx.performCommit_eq (fin : Ctx → Act) : c.performCommit L h fin =
    match (c.committed L h).s.answers (c.out.commit c.r.wave L h.seq false).2 with
    | .wait => .park (c.committed L h) .peer
    | .refused info => .trap (c.committed L h) { cls := .peerNak, info := BitVec.ofNat 32 info }
    | .all => fin (c.commitDone L h) := by
  simp only [Ctx.performCommit, acts, first, ready, Bool.not_true, Bool.and_false, Bool.false_eq_true, if_false]
  rfl

theorem Ctx.performCommit_all (answered : (c.committed L h).s.answers (c.out.commit c.r.wave L h.seq false).2 = .all)
    (fin : Ctx → Act) : c.performCommit L h fin = fin (c.commitDone L h) := by
  rw [Ctx.performCommit_eq acts first ready, answered]

theorem Ctx.performCommit_refused {n : Nat}
    (answered : (c.committed L h).s.answers (c.out.commit c.r.wave L h.seq false).2 = .refused n) (fin : Ctx → Act) :
    c.performCommit L h fin = .trap (c.committed L h) { cls := .peerNak, info := BitVec.ofNat 32 n } := by
  rw [Ctx.performCommit_eq acts first ready, answered]

end

/-- A commit does not make helpers of the lanes that it commits for. -/
theorem Ctx.commitDone_allHelpers (there : Ctx.of? c.s c.r = some c) : (c.commitDone L h).allHelpers = c.allHelpers :=
  (Ctx.externalIf_allHelpers _ _).trans (Ctx.reload_allHelpers there (State.commit_laneViews _ _ _ _ _))

end

/-! Aborts. -/

@[simp] theorem Wave.wwb_setStream (w : Wave) (sl : Slice) (st : Stream) : (w.setStream sl st).wwb = w.wwb := by
  cases sl <;> rfl

@[simp] theorem Ctx.setSpec_w (c : Ctx) (x : Spec) (v : Word) : (c.setSpec x v).w = c.w := by
  cases x <;> rfl

/-- What is left of a wave's buffer once the stores before `cut` have been taken back. -/
def Wave.keptWwb (w : Wave) (cut : Nat) : List Sector :=
  ((w.wwb.map fun k => k.split cut).map (·.2)).filter fun k => !k.isEmpty

theorem Wave.by_of_keptWwb {w : Wave} {cut : Nat} {y : Sector} (kept : y ∈ w.keptWwb cut) {i : Nat} {b : Stamped}
    (byte : y.data.getD i none = some b) : cut ≤ b.by' := by
  simp only [Wave.keptWwb, List.mem_filter, List.mem_map] at kept
  obtain ⟨⟨_, ⟨k, -, rfl⟩, rfl⟩, -⟩ := kept
  simp only [Sector.split, List.getD_eq_getElem?_getD, List.getElem?_map] at byte
  cases old : k.data[i]? with
  | none => simp [old] at byte
  | some o =>
    cases o with
    | none => simp [old] at byte
    | some b' =>
      simp only [old, Option.map_some, Option.getD_some, Option.bind_some] at byte
      split at byte
      · cases byte
      · next later =>
        cases byte
        exact Nat.le_of_not_lt later

/-- An abort changes of the waves the buffer of its own wave alone. -/
theorem State.abort_waves (s : State) (w L cut : Nat) :
    (s.abort w L cut).1.waves = (s.updWave w fun x => { x with wwb := (s.wave w).keptWwb cut }).waves := by
  unfold State.abort
  extract_lets wv bid lid L' parts f0 s₁ rb s₂ cl rg s₃ rl s₄ s₅ left found kind
  have h₂ : s₂.waves = s₁.waves := keeps_ite (f := State.waves) rfl rfl
  have h₃ : s₃.waves = s₁.waves := keeps_ite (f := State.waves) h₂ h₂
  have h₄ : s₄.waves = s₁.waves := keeps_ite (f := State.waves) h₃ h₃
  exact (State.writeOuts_waves _ _).trans h₄

theorem Ctx.reload_abort_wwb {c : Ctx} {L cut : Nat} (there : Ctx.of? c.s c.r = some c) :
    (c.reload (c.out.abort c.r.wave L cut).1).w.wwb = c.w.keptWwb cut := by
  have wave : c.out.wave c.r.wave = c.putBack := by
    rw [State.wave, List.getD_eq_getElem?_getD, Ctx.out_getElem? there, Option.getD_some]
  have inT : (c.out.abort c.r.wave L cut).1.waves[c.r.wave]? = some { c.putBack with wwb := c.putBack.keptWwb cut } := by
    simp only [State.abort_waves, State.updWave, List.getElem?_modify_eq, Ctx.out_getElem? there, wave,
      Option.map_eq_map, Option.map_some]
  have wwb : c.putBack.wwb = c.w.wwb := Wave.wwb_setStream _ _ _
  rw [Ctx.reload_eq there inT rfl]
  simp only [Wave.keptWwb, wwb]

theorem next_heldOp_settled {c : Ctx} {h : Hold} (settled : c.Settled h) (n : Need) (start : Ctx → Except Act Hold)
    (perform : Ctx → Hold → Act) :
    Host.Outcome.next (φ := Fault) (ρ := Refusal) (c.heldOp n start perform).state = .next (perform c h).state := by
  rw [Ctx.heldOp_settled settled]

section
variable {s : State} {c : Ctx} {h : Hold} {x : Spec} {la v : BitVec 4} (issues : s.Issues c) (settled : c.Settled h)
include issues settled

theorem execCmt_settled : exec (.cmt la v) s = .next (c.performCommit v.toNat h fun c =>
    .next c (c.window la [])).state :=
  (issued_eq issues _).trans (next_heldOp_settled settled _ _ _)

theorem execSync_settled : exec (.sync la v) s = .next (c.performCommit v.toNat h fun c =>
    .next (if c.allHelpers then c else c.acquire v.toNat) (c.window la [])).state :=
  (issued_eq issues _).trans (next_heldOp_settled settled _ _ _)

theorem execAbt_settled (arrived : ∀ p ∈ c.w.pend, h.seq ≤ p.seq) : exec (.abt x la v) s =
    .next (((c.reload (c.out.abort c.r.wave v.toNat h.seq).1).setSpec x (c.out.abort c.r.wave v.toNat h.seq).2).done
      (c.window la (specRegs x 1))) := by
  have noneBefore : ¬ (c.w.pend.any fun p => p.seq < h.seq) = true := by
    simpa using arrived
  refine (issued_eq issues _).trans ((next_heldOp_settled settled _ _ _).trans ?_)
  exact congrArg (fun act : Act => Host.Outcome.next act.state) (if_neg noneBefore)

end

/-- Settles O36: a settled instruction performs, a commit by what its peers have answered; the lanes that it commits for are
no helpers afterwards (`commitDone_allHelpers`), so that SYNC goes on to acquire. -/
theorem commitAndAcquire : Obligations.CommitAndAcquire := by
  unfold Obligations.CommitAndAcquire
  intro s c h x la v issues settled
  have there : Ctx.of? c.s c.r = some c := by
    obtain ⟨same, -⟩ := Ctx.of?_some issues.context
    rw [same]
    exact issues.context
  have cmt := execCmt_settled (la := la) (v := v) issues settled
  have sync := execSync_settled (la := la) (v := v) issues settled
  refine ⟨fun acts first ready => ?_, fun helpers => ⟨?_, ?_⟩, ?_, fun arrived => ⟨?_, ?_⟩⟩
  · intro r c1 c2 c3
    refine ⟨fun answered => ⟨?_, ?_⟩, fun n answered => ⟨?_, ?_⟩⟩
    · rw [cmt, Ctx.performCommit_all acts first ready answered]
      rfl
    · rw [sync, Ctx.performCommit_all acts first ready answered, Ctx.commitDone_allHelpers there, acts]
      rfl
    · rw [Traps, cmt, Ctx.performCommit_refused acts first ready answered]
      rfl
    · rw [Traps, sync, Ctx.performCommit_refused acts first ready answered]
      rfl
  · rw [cmt, Ctx.performCommit_helpers helpers]
    rfl
  · rw [sync, Ctx.performCommit_helpers helpers, helpers]
    rfl
  · exact (issued_eq issues _).trans (next_heldOp_settled settled _ _ _)
  · exact execAbt_settled issues settled arrived
  · intro _ y kept i b byte
    rw [Ctx.setSpec_w, Ctx.reload_abort_wwb there] at kept
    exact Wave.by_of_keptWwb kept byte

end Sys2Proof.Machine
end
